-- ==== Sys2Proof/Word.lean ====
section
/-!
DEFINITION. The bit vectors of the ByteChannel core: a byte (00_scope.md R8) and a 40-bit operation descriptor, which is
also the width of a wire frame (30_encoding.md R90, R96).
-/
namespace Sys2Proof

/-- A byte: 8 bits, bit 7 most significant (R8). Every data register and every channel slot has this width (R6 BYTE_W). -/
abbrev Byte := BitVec 8

/-- Five bytes in order of transmission, the first in bits 39:32 (R90, R96). -/
abbrev Word40 := BitVec 40

/-- `{op, a, b, c, e}`: concatenation with the first byte most significant (R8, R96). -/
def Word40.pack (op a b c e : Byte) : Word40 := op ++ a ++ b ++ c ++ e

/-- Byte `i` of a 40-bit word in order of transmission: byte 0 is bits 39:32, byte 4 is bits 7:0. -/
def Word40.byte (d : Word40) (i : Nat) : Byte := d.extractLsb' (32 - 8 * i) 8

end Sys2Proof
end

