-- ==== Sys2Proof/Config.lean ====
section
/-!
DEFINITION. The parameters of the hardware (00_scope.md R6). `K` and `HAS_TRY` are the two the spec leaves open (D1, D7); a
machine carries them in `State.cfg`, so that a statement about every state holds for every value of them. The others
are fixed by the source or by a decision of the spec.
-/
namespace Sys2Proof

/-- The open parameters. `k` is log2 of the capacity of each channel (R6 row N; both channels have the same, D5);
`hasTry` says whether the non-blocking channel operations exist (R6 row HAS_TRY, U1). -/
structure Config where
  k : Nat
  hasTry : Bool
  deriving DecidableEq, Repr

/-- The capacity `N = 2^K` of each channel in bytes (R6). -/
def Config.n (cfg : Config) : Nat := 2 ^ cfg.k

/-- The bound `K >= 1` of R6. -/
abbrev Config.legal (cfg : Config) : Prop := 1 ≤ cfg.k

/-- The spec's defaults: `K = 8`, so `N = 256`, and the TRY operations offered (R6). -/
def Config.default : Config := { k := 8, hasTry := true }

/-- R6 row BYTE_W. -/
abbrev Config.byteW : Nat := 8
/-- R6 row N_CHANNELS. -/
abbrev Config.nChannels : Nat := 2
/-- R6 row FRAME_LEN. -/
abbrev Config.frameLen : Nat := 5
/-- R6 row PAYLOAD_LEN. -/
abbrev Config.payloadLen : Nat := 4
/-- R6 row WINDOW_LEN. -/
abbrev Config.windowLen : Nat := 5
/-- R6 row ACK_MASK. -/
abbrev Config.ackMask : Byte := 0x80#8
/-- R6 row CODE_MASK. -/
abbrev Config.codeMask : Byte := 0x7F#8
/-- R6 row SIG_MAX: the largest count of a handler-to-worker signal. -/
abbrev Config.sigMax : Nat := 1

end Sys2Proof
end

