-- ==== Sys2Proof/Syntax.lean ====
section
/-!
DEFINITION. The syntax of the machine: the two channels, the packet record, and one constructor of `Instr` for each row of
spec/opcode_table.json (30_encoding.md R97, R102); the agents and contexts that perform them (00_scope.md R7,
60_exceptions.md R240); the pseudo-operations of R101.
-/
namespace Sys2Proof

/-- The two channels of the SerialTransport (10_state.md R27): `inb` is the spec's `in`, `out` its `out`. -/
inductive Chan where
  | inb
  | out
  deriving DecidableEq, Repr

/-- The five bytes of a packet in wire order (30_encoding.md R90). The same record is the assembly window `w[0..4]`, oldest byte
first (10_state.md R39), the current packet `pkt[0..4]` (R41) and the send buffer `put_buf[0..4]` (R43): element 0 is
`command`, element 4 `checksum` (20_memory.md R64). -/
structure Packet where
  command : Byte
  param1 : Byte
  param2 : Byte
  param3 : Byte
  checksum : Byte
  deriving DecidableEq, Repr

/-- The closed list of operations and agent steps (R97), and the wire format `FRAME`, which is a row of the opcode table
and "a data format, not an operation" (R102). Operand names are those of the table. -/
inductive Instr where
  | stInit
  | fpInit
  | chPut (h : Chan) (a : Byte)
  | chGet (h : Chan)
  | chTryput (h : Chan) (a : Byte)
  | chTryget (h : Chan)
  | stIn
  | stOut (a : Byte)
  | rxIsr
  | rxWorker
  | txIsr
  | txWorker
  | lineRx (a : Byte)
  | lineTx
  | fpStep
  | fpGet
  | fpTryget
  | fpPut (a b c e : Byte)
  | fpPutStep
  | frame (p : Packet)
  deriving DecidableEq, Repr

/-- The agents of 00_scope.md R7. -/
inductive Agent where
  | lineReceive
  | lineTransmit
  | receiveHandler
  | receiveWorker
  | transmitHandler
  | transmitWorker
  | framingReceiver
  | framingSender
  | dispatcher
  | initialiser
  | directUser
  deriving DecidableEq, Repr

/-- The two execution contexts of 60_exceptions.md R240, and the environment, whose steps run outside the block. -/
inductive Context where
  | interrupt
  | thread
  | outside
  deriving DecidableEq, Repr

/-- The descriptor formats of 30_encoding.md R96, and the wire format of R90. -/
inductive Format where
  | opd0
  | opd1
  | opd4
  | wire5
  deriving DecidableEq, Repr

/-- `RX_BYTE a`: carry one byte from the line into `in` (R101). -/
def Instr.rxByte (a : Byte) : List Instr := [.lineRx a, .rxIsr, .rxWorker]

/-- `TX_BYTE`: carry one byte from `out` onto the line (R101). -/
def Instr.txByte : List Instr := [.txIsr, .txWorker, .lineTx]

/-- `FP_SEND a, b, c, e`: the source's blocking `Put` (R101). -/
def Instr.fpSend (a b c e : Byte) : List Instr :=
  [.fpPut a b c e, .fpPutStep, .fpPutStep, .fpPutStep, .fpPutStep, .fpPutStep]

end Sys2Proof
end

