-- ==== Sys2Proof/WellFormed.lean ====
section
/-!
DEFINITION. Which instructions are well formed. A descriptor's operands are bytes and a channel, and every value of them is
legal (30_encoding.md R96, R99), so every operation is well formed. A 40-bit string is a frame only when its checksum
byte is the exclusive OR of the four payload bytes (R93).
-/
namespace Sys2Proof

/-- R93: `checksum == command XOR param1 XOR param2 XOR param3`. -/
def Packet.valid (p : Packet) : Bool :=
  p.command ^^^ p.param1 ^^^ p.param2 ^^^ p.param3 == p.checksum

/-- An operation descriptor always, a frame when it satisfies R93. -/
def Instr.wellFormed : Instr → Bool
  | .stInit => true
  | .fpInit => true
  | .chPut _ _ => true
  | .chGet _ => true
  | .chTryput _ _ => true
  | .chTryget _ => true
  | .stIn => true
  | .stOut _ => true
  | .rxIsr => true
  | .rxWorker => true
  | .txIsr => true
  | .txWorker => true
  | .lineRx _ => true
  | .lineTx => true
  | .fpStep => true
  | .fpGet => true
  | .fpTryget => true
  | .fpPut _ _ _ _ => true
  | .fpPutStep => true
  | .frame p => p.valid

/-- The rows of the opcode table whose `space` is `descriptor` (R102): the 19 operations, not the wire format. -/
def Instr.isOperation : Instr → Bool
  | .frame _ => false
  | .stInit | .fpInit | .chPut _ _ | .chGet _ | .chTryput _ _ | .chTryget _ | .stIn | .stOut _ | .rxIsr | .rxWorker
  | .txIsr | .txWorker | .lineRx _ | .lineTx | .fpStep | .fpGet | .fpTryget | .fpPut _ _ _ _ | .fpPutStep => true

end Sys2Proof
end

