-- ==== Sys2Proof/Decode.lean ====
section
/-!
DEFINITION. The encodings of 30_encoding.md: the wire frame and its command byte (R90 to R95), and the operation descriptors
(R96 to R99). `decode` reads a descriptor and uses the `descriptor` rows of the opcode table only (R102); `decodeFrame`
reads a wire frame. Both are total and reject by name. `encode` writes the words of a well-formed instruction.
-/
namespace Sys2Proof

/-- Why a 40-bit word spells nothing. The first two are R98's illegal descriptors; the third is R93's test. -/
inductive DecodeError where
  /-- The opcode is not in R97's map. -/
  | unassignedOpcode (op : Byte)
  /-- An operand byte that R96's format does not use is not 0x00. -/
  | nonzeroUnusedOperand
  /-- The word is not a valid frame (R93). -/
  | notAFrame
  deriving DecidableEq, Repr

/-- The acknowledge bit of a command byte, `command[7]` (R91). -/
def ack (command : Byte) : Bool := command &&& Config.ackMask != 0#8

/-- The command code of a command byte, `command[6:0]` (R91). -/
def code (command : Byte) : Byte := command &&& Config.codeMask

/-- The command byte with the given code and acknowledge bit (R91). -/
def withAck (code7 : Byte) (a : Bool) : Byte :=
  if a then code7 ||| Config.ackMask else code7 &&& Config.codeMask

/-- The checksum function `cks(a, b, c, e) = a ^ b ^ c ^ e` (42_framing.md R191, R92). -/
def cks (a b c e : Byte) : Byte := a ^^^ b ^^^ c ^^^ e

/-- The packet with the given payload and its checksum (R92). -/
def Packet.ofPayload (a b c e : Byte) : Packet :=
  { command := a, param1 := b, param2 := c, param3 := e, checksum := cks a b c e }

/-- The bytes of a packet in wire order (R64, R90). -/
def Packet.bytes (p : Packet) : List Byte := [p.command, p.param1, p.param2, p.param3, p.checksum]

/-- The 40-bit string `f` of a frame: the byte sent first in bits 39:32 (R90). -/
def Packet.toWord (p : Packet) : Word40 := Word40.pack p.command p.param1 p.param2 p.param3 p.checksum

/-- The fields of a 40-bit string read as a frame (R90). -/
def Packet.ofWord (f : Word40) : Packet :=
  { command := f.byte 0, param1 := f.byte 1, param2 := f.byte 2, param3 := f.byte 3, checksum := f.byte 4 }

/-- The channel select bit `h`, the least significant bit of a channel opcode (R96). -/
def chanOf (op : Byte) : Chan := if op.getLsbD 0 then .out else .inb

/-- A channel opcode with its select bit: `base | h` (R96, R120 to R123). -/
def withChan (base : Byte) : Chan → Byte
  | .inb => base
  | .out => base ||| 0x01#8

/-- Format `OPD0` (R96): no operand, so all four operand bytes are 0x00. -/
def opd0 (a b c e : Byte) (i : Instr) : Except DecodeError Instr :=
  if a = 0#8 ∧ b = 0#8 ∧ c = 0#8 ∧ e = 0#8 then .ok i else .error .nonzeroUnusedOperand

/-- Format `OPD1` (R96): operand `a`, the other three bytes 0x00. -/
def opd1 (b c e : Byte) (i : Instr) : Except DecodeError Instr :=
  if b = 0#8 ∧ c = 0#8 ∧ e = 0#8 then .ok i else .error .nonzeroUnusedOperand

/-- The opcode map of R97 on the five bytes of a descriptor; every other opcode is unassigned (R98). -/
def decodeFields (op a b c e : Byte) : Except DecodeError Instr :=
  match op.toNat with
  | 0x01 => opd0 a b c e .stInit
  | 0x02 => opd0 a b c e .fpInit
  | 0x10 => opd1 b c e (.chPut (chanOf op) a)
  | 0x11 => opd1 b c e (.chPut (chanOf op) a)
  | 0x12 => opd0 a b c e (.chGet (chanOf op))
  | 0x13 => opd0 a b c e (.chGet (chanOf op))
  | 0x14 => opd1 b c e (.chTryput (chanOf op) a)
  | 0x15 => opd1 b c e (.chTryput (chanOf op) a)
  | 0x16 => opd0 a b c e (.chTryget (chanOf op))
  | 0x17 => opd0 a b c e (.chTryget (chanOf op))
  | 0x20 => opd0 a b c e .stIn
  | 0x21 => opd1 b c e (.stOut a)
  | 0x22 => opd0 a b c e .rxIsr
  | 0x23 => opd0 a b c e .rxWorker
  | 0x24 => opd0 a b c e .txIsr
  | 0x25 => opd0 a b c e .txWorker
  | 0x28 => opd1 b c e (.lineRx a)
  | 0x29 => opd0 a b c e .lineTx
  | 0x30 => opd0 a b c e .fpStep
  | 0x31 => opd0 a b c e .fpGet
  | 0x32 => opd0 a b c e .fpTryget
  | 0x33 => .ok (.fpPut a b c e)
  | 0x34 => opd0 a b c e .fpPutStep
  | _ => .error (.unassignedOpcode op)

/-- The instruction a descriptor spells (R96, R97), or why it spells none (R98). -/
def decode (d : Word40) : Except DecodeError Instr :=
  decodeFields (d.byte 0) (d.byte 1) (d.byte 2) (d.byte 3) (d.byte 4)

/-- The wire format row: the frame a 40-bit string is, if R93 holds of it. No byte value is illegal in any field (R94). -/
def decodeFrame (f : Word40) : Except DecodeError Instr :=
  if (Packet.ofWord f).valid then .ok (.frame (Packet.ofWord f)) else .error .notAFrame

/-- The words of an instruction, from R96, R97 and R99; for the wire format, R90. -/
def encode : Instr → Word40
  | .stInit => .pack 0x01#8 0#8 0#8 0#8 0#8
  | .fpInit => .pack 0x02#8 0#8 0#8 0#8 0#8
  | .chPut h a => .pack (withChan 0x10#8 h) a 0#8 0#8 0#8
  | .chGet h => .pack (withChan 0x12#8 h) 0#8 0#8 0#8 0#8
  | .chTryput h a => .pack (withChan 0x14#8 h) a 0#8 0#8 0#8
  | .chTryget h => .pack (withChan 0x16#8 h) 0#8 0#8 0#8 0#8
  | .stIn => .pack 0x20#8 0#8 0#8 0#8 0#8
  | .stOut a => .pack 0x21#8 a 0#8 0#8 0#8
  | .rxIsr => .pack 0x22#8 0#8 0#8 0#8 0#8
  | .rxWorker => .pack 0x23#8 0#8 0#8 0#8 0#8
  | .txIsr => .pack 0x24#8 0#8 0#8 0#8 0#8
  | .txWorker => .pack 0x25#8 0#8 0#8 0#8 0#8
  | .lineRx a => .pack 0x28#8 a 0#8 0#8 0#8
  | .lineTx => .pack 0x29#8 0#8 0#8 0#8 0#8
  | .fpStep => .pack 0x30#8 0#8 0#8 0#8 0#8
  | .fpGet => .pack 0x31#8 0#8 0#8 0#8 0#8
  | .fpTryget => .pack 0x32#8 0#8 0#8 0#8 0#8
  | .fpPut a b c e => .pack 0x33#8 a b c e
  | .fpPutStep => .pack 0x34#8 0#8 0#8 0#8 0#8
  | .frame p => p.toWord

/-- The format of each row (R96, R97, R90). -/
def Instr.format : Instr → Format
  | .stInit | .fpInit | .chGet _ | .chTryget _ | .stIn | .rxIsr | .rxWorker | .txIsr | .txWorker | .lineTx | .fpStep
  | .fpGet | .fpTryget | .fpPutStep => .opd0
  | .chPut _ _ | .chTryput _ _ | .stOut _ | .lineRx _ => .opd1
  | .fpPut _ _ _ _ => .opd4
  | .frame _ => .wire5

/-- The agent that performs each operation (R7, R97 column "requester"); none performs a data format. -/
def Instr.requester : Instr → Option Agent
  | .stInit | .fpInit => some .initialiser
  | .chPut _ _ | .chGet _ | .chTryput _ _ | .chTryget _ => some .directUser
  | .stIn | .fpStep => some .framingReceiver
  | .stOut _ | .fpPutStep => some .framingSender
  | .rxIsr => some .receiveHandler
  | .rxWorker => some .receiveWorker
  | .txIsr => some .transmitHandler
  | .txWorker => some .transmitWorker
  | .lineRx _ => some .lineReceive
  | .lineTx => some .lineTransmit
  | .fpGet | .fpTryget | .fpPut _ _ _ _ => some .dispatcher
  | .frame _ => none

/-- The context an agent runs in (R7, R240). -/
def Agent.context : Agent → Context
  | .receiveHandler | .transmitHandler => .interrupt
  | .lineReceive | .lineTransmit => .outside
  | .receiveWorker | .transmitWorker | .framingReceiver | .framingSender | .dispatcher | .initialiser | .directUser => .thread

/-- The descriptor whose low `nbits` bits are those of `w`; the bits above are zero. -/
def tableWord (nbits w : Nat) : Word40 := BitVec.ofNat 40 (w % 2 ^ nbits)

/-- The instruction of an opcode-table word `w` of `nbits` bits, numbered as the table numbers them: the table gives a
row's 40 bits as one number, bits 39:32 the first byte (R96, R102). Bits above `nbits` are zero. -/
def decodeTableWord (nbits w : Nat) : Option Instr :=
  match decode (tableWord nbits w) with
  | .ok i => some i
  | .error _ => none

end Sys2Proof
end

