-- ==== Sys2Proof/Machine/State.lean ====
section
/-!
DEFINITION. The state of the ByteChannel core (10_state.md R20), the reasons a step can stop (60_exceptions.md R232), and the
state at power-on (70_reset_and_hazards.md R270).
-/
namespace Sys2Proof
namespace Machine

/-- The backing storage of a channel (R21): the slots that hold a value, as (slot index, byte) pairs with indices strictly
rising. A slot that is not listed holds no value (U9, log 6). -/
abbrev Memory := List Host.Cell

/-- The canonical form: indices strictly rise. An unlisted slot holds no value, so no entry repeats what it reads as. -/
abbrev Memory.wf (m : Memory) : Prop := m.Pairwise (fun x y => x.1 < y.1)

/-- One ByteChannel (R21 to R24). Indices and the count are numbers (R8); their ranges are the channel invariant of R25. -/
structure Channel where
  /-- R21 `mem`. -/
  mem : Memory
  /-- R22 `start`: the slot the next get reads. -/
  start : Nat
  /-- R23 `end`: the slot the next put writes. -/
  endIdx : Nat
  /-- R24 `used`: the number of occupied slots. -/
  used : Nat
  deriving DecidableEq, Repr

/-- What `return` hands to the requester of an operation (00_scope.md R9, 30_encoding.md R97 column "result"), or `held`
when the guard was false and no step took place (R10). The model's own field: R20 says requests are no state. -/
inductive Result where
  /-- No result. -/
  | none
  /-- The guard is false: the requester holds, neither refused nor failed (R10). -/
  | held
  /-- The byte of `CH_GET`, `ST_IN`, `LINE_TX`. -/
  | byte (v : Byte)
  /-- The ok bit of `CH_TRYPUT` and `FP_STEP`, and ok = 0 of `CH_TRYGET` and `FP_TRYGET`, which then give no value. -/
  | ok (b : Bool)
  /-- ok = 1 and the byte of `CH_TRYGET`. -/
  | okByte (v : Byte)
  /-- The four payload fields of `FP_GET`. -/
  | packet (command param1 param2 param3 : Byte)
  /-- ok = 1 and the four payload fields of `FP_TRYGET`. -/
  | okPacket (command param1 param2 param3 : Byte)
  deriving DecidableEq, Repr

/-- The complete state of R20, the three histories of R46, and three fields of the model's own (`cfg`, `schedule`,
`result`), which R20 calls parameters of the step relation. -/
structure State where
  /-- The open parameters N and HAS_TRY (R6); no step changes them (R26). -/
  cfg : Config
  /-- Channel `in` (R27). -/
  inb : Channel
  /-- Channel `out` (R27). -/
  out : Channel
  /-- R29 `RXD`. -/
  rxd : Byte
  /-- R30 `TXD`. -/
  txd : Byte
  /-- R31 `rx_ready`. -/
  rxReady : Bool
  /-- R32 `tx_ready`. -/
  txReady : Bool
  /-- R33 `rx_ie`. -/
  rxIe : Bool
  /-- R34 `tx_ie`. -/
  txIe : Bool
  /-- R36 `rx_slot`. -/
  rxSlot : Byte
  /-- R37 `rx_sig`. -/
  rxSig : Nat
  /-- R38 `tx_sig`. -/
  txSig : Nat
  /-- R39 `w[0..4]`, oldest byte first. -/
  w : Packet
  /-- R40 `wcount`. -/
  wcount : Nat
  /-- R41 `pkt[0..4]`, the current packet. -/
  pkt : Packet
  /-- R43 `put_buf[0..4]`. -/
  putBuf : Packet
  /-- R43 `put_idx`; 5 means idle. -/
  putIdx : Nat
  /-- R48 `st_inited`. -/
  stInited : Bool
  /-- R48 `fp_inited`. -/
  fpInited : Bool
  /-- R46 `line_in`: the bytes the line has delivered, in order of time. -/
  lineIn : List Byte
  /-- R46 `line_out`: the bytes the transmitter has sent. -/
  lineOut : List Byte
  /-- R46 `pkt_out`: the packets delivered. -/
  pktOut : List Packet
  /-- The descriptors still to be run, the next one first (95_test_vectors.md section 3; log 8). -/
  schedule : List Word40
  /-- The result of the last operation (log 13). -/
  result : Result
  deriving DecidableEq, Repr

/-- The reasons a run stops with a fault. -/
inductive Fault where
  /-- `LineOverrun(a)` (R151, R232): raised by `LINE_RX a` when the previous byte was never read. Safe: on the real
  peripheral a byte is lost and the source does not say which; the model gives no state after it (D11). -/
  | lineOverrun (a : Byte)
  /-- A get reads a slot that holds no value. Raised by `MemRead`, so by any get, only in states no run from reset reaches
  (U9: "a model ... uses 'no value' and fault on a read"). Safe. -/
  | unwrittenSlot (c : Chan) (i : Nat)
  /-- `MemRead` or `MemWrite` at an index outside `0..N-1`, raised by a get or a put only in states no run from reset reaches
  (R62: it "cannot occur"). Safe. -/
  | slotOutOfRange (c : Chan) (i : Nat)
  deriving DecidableEq, Repr

/-- The reasons a request is refused: it "has no meaning in the hardware and changes no state" (R232). All are safe. -/
inductive Refusal where
  /-- An instruction without a meaning; raised by `exec` only, and by no arm of this model. -/
  | notModelled (mnemonic : String)
  /-- R98 `refuse(unknown_descriptor)`: raised by `step` when the next descriptor spells no operation. -/
  | unknownDescriptor
  /-- R273: a request before `ST_INIT`; raised by every `CH_`, `ST_` and `LINE_` operation, the handlers, the workers and
  `FP_INIT`. -/
  | beforeStInit
  /-- R273: an `FP_` operation other than `FP_INIT` before `FP_INIT`. -/
  | beforeFpInit
  /-- R273: a second `ST_INIT` or a second `FP_INIT`. -/
  | secondInit
  /-- U1: `CH_TRYPUT` or `CH_TRYGET` on a machine whose parameter HAS_TRY is false. -/
  | tryNotOffered
  /-- R102: `FRAME` is "a data format, not an operation"; raised by `exec` on a frame. -/
  | notAnOperation
  deriving DecidableEq, Repr

/-- What a meaning answers. -/
abbrev Out := Host.Outcome State Fault Refusal

/-- A channel with every index and count at 0 and no slot written (log 3, log 6). -/
def Channel.initial : Channel := { mem := [], start := 0, endIdx := 0, used := 0 }

/-- Five zero bytes (log 3). -/
def zeroPacket : Packet := { command := 0#8, param1 := 0#8, param2 := 0#8, param3 := 0#8, checksum := 0#8 }

/-- The machine at power-on (R270): `st_inited = 0` and `fp_inited = 0` are the spec's; every other element is unspecified
there and holds the value log 3 names. The parameters are R6's defaults; nothing is scheduled. -/
def State.reset : State :=
  { cfg := Config.default
    inb := Channel.initial
    out := Channel.initial
    rxd := 0#8
    txd := 0#8
    rxReady := false
    txReady := false
    rxIe := false
    txIe := false
    rxSlot := 0#8
    rxSig := 0
    txSig := 0
    w := zeroPacket
    wcount := 0
    pkt := zeroPacket
    putBuf := zeroPacket
    putIdx := 0
    stInited := false
    fpInited := false
    lineIn := []
    lineOut := []
    pktOut := []
    schedule := []
    result := .none }

end Machine
end Sys2Proof
end

