-- ==== Sys2Proof/Machine/Operands.lean ====
section
/-!
DEFINITION. The operand forms: the channel an operand `h` selects (40_bytechannel.md, template), a byte of a five-byte
register array (00_scope.md R9 `w[i]`), and the shift that takes the newest byte into the window (42_framing.md R192).
-/
namespace Sys2Proof
namespace Machine

/-- Channel `h` of a state: `in` for `h = 0`, `out` for `h = 1`. -/
def State.chan (s : State) : Chan → Channel
  | .inb => s.inb
  | .out => s.out

/-- The state with channel `h` replaced. -/
def State.setChan (s : State) (h : Chan) (c : Channel) : State :=
  match h with
  | .inb => { s with inb := c }
  | .out => { s with out := c }

/-- Element `i` of a five-byte register array: element 0 is `command`, element 4 `checksum` (20_memory.md R64). -/
def packetByte (p : Packet) : Nat → Byte
  | 0 => p.command
  | 1 => p.param1
  | 2 => p.param2
  | 3 => p.param3
  | _ => p.checksum

/-- `(w[0], w[1], w[2], w[3], w[4]) <- (w[1], w[2], w[3], w[4], x)`, all five at once (R192). -/
def shiftIn (w : Packet) (x : Byte) : Packet :=
  { command := w.param1, param1 := w.param2, param2 := w.param3, param3 := w.checksum, checksum := x }

end Machine
end Sys2Proof
end

