-- ==== Sys2Proof/Machine/Flags.lean ====
section
/-!
DEFINITION. The flags the state does not store but the rules compute: channel full and empty (10_state.md R28), the two
interrupt requests (60_exceptions.md R234), the guards of the workers and the framing sender, and the register view of the transport's flags (10_state.md R35).
-/
namespace Sys2Proof
namespace Machine

/-- `full(c) = (c.used == N)` (R28). -/
def State.full (s : State) (h : Chan) : Bool := (s.chan h).used == s.cfg.n

/-- `empty(c) = (c.used == 0)` (R28). -/
def State.empty (s : State) (h : Chan) : Bool := (s.chan h).used == 0

/-- The guard of every put on channel `h`: `c.used < N` (R120). -/
def State.hasRoom (s : State) (h : Chan) : Bool := decide ((s.chan h).used < s.cfg.n)

/-- The guard of every get on channel `h`: `c.used > 0` (R121). -/
def State.hasData (s : State) (h : Chan) : Bool := decide (0 < (s.chan h).used)

/-- `irq_rx = rx_ready and rx_ie and (rx_sig == 0)` (R234). -/
def State.irqRx (s : State) : Bool := s.rxReady && s.rxIe && s.rxSig == 0

/-- `irq_tx = tx_ready and tx_ie and (tx_sig == 0)` (R234). -/
def State.irqTx (s : State) : Bool := s.txReady && s.txIe && s.txSig == 0

/-- The guard of `RX_WORKER`: `rx_sig == 1 and in.used < N` (41_serialtransport.md R153). -/
def State.canDeliver (s : State) : Bool := s.rxSig == 1 && s.hasRoom .inb

/-- The guard of `TX_WORKER`: `tx_sig == 1` (41_serialtransport.md R157). -/
def State.canServe (s : State) : Bool := s.txSig == 1

/-- The guard of `FP_PUT_STEP`: `put_idx < 5 and out.used < N` (42_framing.md R196). -/
def State.canPush (s : State) : Bool := decide (s.putIdx < 5) && s.hasRoom .out

/-- A byte with bits 0 and 1 given and bits 7:2 zero. -/
def twoBits (b0 b1 : Bool) : Byte := 0#6 ++ BitVec.ofBool b1 ++ BitVec.ofBool b0

/-- The value of register 0, `ST_CTRL`: bit 0 `rx_ie`, bit 1 `tx_ie`, bits 7:2 read as 0 (R35). -/
def State.stCtrl (s : State) : Byte := twoBits s.rxIe s.txIe

/-- The value of register 1, `ST_STAT`: bit 0 `rx_ready`, bit 1 `tx_ready`, bits 7:2 read as 0 (R35). -/
def State.stStat (s : State) : Byte := twoBits s.rxReady s.txReady

/-- The register view by number (R35): 0 `ST_CTRL`, 1 `ST_STAT`, 2 `RXD`, 3 `TXD`; there is no other register. This is the
value held; the side effect of the read of `RXD` is `takeRxd`. -/
def State.register (s : State) : Nat → Option Byte
  | 0 => some s.stCtrl
  | 1 => some s.stStat
  | 2 => some s.rxd
  | 3 => some s.txd
  | _ => none

end Machine
end Sys2Proof
end

