-- ==== Sys2Proof/Machine/Ops.lean ====
section
/-!
DEFINITION. The shared operations over memories, channels, registers and signals, out of which every meaning is written:
MemRead and MemWrite (20_memory.md R62), put and get (40_bytechannel.md R120, R121), the two data registers (R67), post and
wait (R76), taking an interrupt (60_exceptions.md R234, R237, R238), one step of the receive algorithm and its loop
(42_framing.md R192 to R194), and taking the next descriptor of the schedule.
-/
namespace Sys2Proof
namespace Machine

/-! ### Memory -/

/-- The byte slot `i` holds, if any. -/
def memGet : Memory → Nat → Option Byte
  | [], _ => none
  | (j, b) :: m, i => if j = i then some b else memGet m i

/-- The memory with slot `i` holding `v`; the canonical form is kept. -/
def memSet : Memory → Nat → Byte → Memory
  | [], i, v => [(i, v)]
  | (j, b) :: m, i, v =>
    if i < j then (i, v) :: (j, b) :: m
    else if j = i then (i, v) :: m
    else (j, b) :: memSet m i v

/-- `MemRead(c, i, 1)` on a memory of `n` slots (R62): the byte at slot `i`; a slot outside the memory or one that holds no
value is a fault (U9). -/
def memRead (n : Nat) (h : Chan) (m : Memory) (i : Nat) : Except Fault Byte :=
  if i < n then
    match memGet m i with
    | some v => .ok v
    | none => .error (.unwrittenSlot h i)
  else .error (.slotOutOfRange h i)

/-- `MemWrite(c, i, 1, v)` on a memory of `n` slots (R62). -/
def memWrite (n : Nat) (h : Chan) (m : Memory) (i : Nat) (v : Byte) : Except Fault Memory :=
  if i < n then .ok (memSet m i v) else .error (.slotOutOfRange h i)

/-! ### Channels -/

/-- `(i + 1) mod N`: after slot `N-1` comes slot 0 (R63). -/
def nextIndex (n i : Nat) : Nat := (i + 1) % n

/-- The body of a put, its guard being true (R120): write at `end`, advance `end`, count one more. -/
def Channel.putByte (n : Nat) (h : Chan) (c : Channel) (a : Byte) : Except Fault Channel :=
  (memWrite n h c.mem c.endIdx a).map fun m =>
    { c with mem := m, endIdx := nextIndex n c.endIdx, used := c.used + 1 }

/-- The body of a get, its guard being true (R121): read at `start`, advance `start`, count one less. The slot keeps its byte
(R21). -/
def Channel.getByte (n : Nat) (h : Chan) (c : Channel) : Except Fault (Byte × Channel) :=
  (memRead n h c.mem c.start).map fun v =>
    (v, { c with start := nextIndex n c.start, used := c.used - 1 })

/-- A put on channel `h` of a state. -/
def State.putOn (s : State) (h : Chan) (a : Byte) : Except Fault State :=
  ((s.chan h).putByte s.cfg.n h a).map (s.setChan h)

/-- A get on channel `h` of a state. -/
def State.getFrom (s : State) (h : Chan) : Except Fault (Byte × State) :=
  ((s.chan h).getByte s.cfg.n h).map fun r => (r.1, s.setChan h r.2)

/-- An empty channel with both indices at 0; the backing store is left as it was (R150). -/
def Channel.created (c : Channel) : Channel := { c with start := 0, endIdx := 0, used := 0 }

/-! ### Registers and signals -/

/-- The read of `RXD`, which also clears `rx_ready` (R29, R67 (a)). -/
def State.takeRxd (s : State) : Byte × State := (s.rxd, { s with rxReady := false })

/-- The write of `TXD`, which also clears `tx_ready` and begins transmission (R30, R67 (b)). -/
def State.writeTxd (s : State) (v : Byte) : State := { s with txd := v, txReady := false }

/-- A write of register 0, `ST_CTRL`: bit 0 to `rx_ie`, bit 1 to `tx_ie`, bits 7:2 ignored (R35). -/
def State.writeStCtrl (s : State) (b : Byte) : State := { s with rxIe := b.getLsbD 0, txIe := b.getLsbD 1 }

/-- Post on `rx_sig` (R76). -/
def State.postRx (s : State) : State := { s with rxSig := s.rxSig + 1 }

/-- The decrement of a wait on `rx_sig`, its guard being true (R76). -/
def State.waitRx (s : State) : State := { s with rxSig := s.rxSig - 1 }

/-- Post on `tx_sig` (R76). -/
def State.postTx (s : State) : State := { s with txSig := s.txSig + 1 }

/-- The decrement of a wait on `tx_sig`, its guard being true (R76). -/
def State.waitTx (s : State) : State := { s with txSig := s.txSig - 1 }

/-! ### Outcomes -/

/-- The step ends and hands `r` to the requester. -/
def State.done (s : State) (r : Result) : Out := .next { s with result := r }

/-- The guard is false: there is no step, the state is as it was and the requester holds (00_scope.md R10). -/
def State.hold (s : State) : Out := s.done .held

/-- The outcome of a step body that may fault. -/
def finish (x : Except Fault State) (r : Result) : Out :=
  match x with
  | .ok s => s.done r
  | .error f => .fault f

/-- The outcome of a step body that also gives a byte for the requester. -/
def finishByte (x : Except Fault (Byte × State)) (r : Byte → Result) : Out :=
  match x with
  | .ok (v, s) => s.done (r v)
  | .error f => .fault f

/-- R273: what needs the transport is refused before `ST_INIT`. -/
def State.needSt (s : State) (k : Out) : Out := if s.stInited then k else .refused .beforeStInit

/-- R273: an `FP_` operation other than `FP_INIT` is refused before `FP_INIT`. -/
def State.needFp (s : State) (k : Out) : Out := if s.fpInited then k else .refused .beforeFpInit

/-- U1: the TRY operations are refused on a machine that does not offer them. -/
def State.needTry (s : State) (k : Out) : Out := if s.cfg.hasTry then k else .refused .tryNotOffered

/-- Taking an interrupt: the handler step is enabled exactly when its request is 1 (R234). Entry saves and changes no state
of this block (R237), the handler runs to its end as one atomic step, and its return restores nothing and changes no
enable (R238). -/
def State.takeInterrupt (s : State) (request : Bool) (handler : State → State) : Out :=
  if request then (handler s).done .none else s.hold

/-! ### Transport -/

/-- The body of `ST_OUT a`: the put on `out` and the enable, one atomic step (R155). -/
def State.submit (s : State) (a : Byte) : Except Fault State :=
  (s.putOn .out a).map fun t => { t with txIe := true }

/-! ### The receive algorithm -/

/-- Slide the window by the byte `x` and test it (R192): the new ok bit and state. The test is made only when the window holds
five bytes received since it was last empty. -/
def State.slide (s : State) (x : Byte) : Bool × State :=
  let w := shiftIn s.w x
  let n := min (s.wcount + 1) 5
  if n = 5 ∧ w.valid = true then
    (true, { s with w := w, wcount := 0, pkt := w, pktOut := s.pktOut ++ [w] })
  else
    (false, { s with w := w, wcount := n })

/-- One iteration of the receive algorithm, `in` being non-empty: take one byte (`ST_IN`), slide, test, in one atomic step
(R192). -/
def State.receiveByte (s : State) : Except Fault (Bool × State) :=
  (s.getFrom .inb).map fun r => r.2.slide r.1

/-- At most `fuel` iterations, stopping at the first ok = 1. -/
def receiveLoop : Nat → State → Except Fault (Bool × State)
  | 0, s => .ok (false, s)
  | fuel + 1, s =>
    match s.receiveByte with
    | .ok (true, t) => .ok (true, t)
    | .ok (false, t) => receiveLoop fuel t
    | .error f => .error f

/-- Iterate until a packet is found or `in` is empty (R193, R194): each iteration takes one byte, so `in.used` of them empty it. -/
def State.receive (s : State) : Except Fault (Bool × State) := receiveLoop s.inb.used s

/-! ### The schedule -/

/-- The next descriptor of the schedule and the state with the rest of it; none when nothing is scheduled. -/
def State.fetch (s : State) : Option (Word40 × State) :=
  match s.schedule with
  | [] => none
  | d :: rest => some (d, { s with schedule := rest })

/-- The state with a descriptor placed where the next step takes it. -/
def State.place (s : State) (d : Word40) : State := { s with schedule := d :: s.schedule }

end Machine
end Sys2Proof
end

