-- ==== Sys2Proof/Machine/ByteChannel.lean ====
section
/-!
DEFINITION. The channel family, 40_bytechannel.md: `CH_PUT` (R120), `CH_GET` (R121), `CH_TRYPUT` (R122), `CH_TRYGET` (R123).
-/
namespace Sys2Proof
namespace Machine

/-- `CH_PUT h, a` (R120): store the byte, or hold while the channel is full. It does not touch `tx_ie`. -/
def execChPut (h : Chan) (a : Byte) (s : State) : Out :=
  s.needSt (if s.hasRoom h then finish (s.putOn h a) .none else s.hold)

/-- `CH_GET h` (R121): return the oldest byte, or hold while the channel is empty. -/
def execChGet (h : Chan) (s : State) : Out :=
  s.needSt (if s.hasData h then finishByte (s.getFrom h) .byte else s.hold)

/-- `CH_TRYPUT h, a` (R122): store the byte and return ok = 1, or return ok = 0 with the channel unchanged. -/
def execChTryput (h : Chan) (a : Byte) (s : State) : Out :=
  s.needTry (s.needSt (if s.hasRoom h then finish (s.putOn h a) (.ok true) else s.done (.ok false)))

/-- `CH_TRYGET h` (R123): return ok = 1 and the oldest byte, or ok = 0, no byte and the channel unchanged. -/
def execChTryget (h : Chan) (s : State) : Out :=
  s.needTry (s.needSt (if s.hasData h then finishByte (s.getFrom h) .okByte else s.done (.ok false)))

end Machine
end Sys2Proof
end

