-- ==== Sys2Proof/Machine/Framing.lean ====
section
/-!
DEFINITION. The framing family, 42_framing.md: receive (`FP_STEP` R192, `FP_GET` R193, `FP_TRYGET` R194) and send (`FP_PUT` R195,
`FP_PUT_STEP` R196); and the wire format row `FRAME`, which is no operation (30_encoding.md R102).
-/
namespace Sys2Proof
namespace Machine

/-- `FP_STEP` (R192): consume one byte, slide, test; hold while `in` is empty. -/
def execFpStep (s : State) : Out :=
  s.needFp
    (if s.hasData .inb then
      match s.receiveByte with
      | .ok (ok, t) => t.done (.ok ok)
      | .error f => .fault f
     else s.hold)

/-- `FP_GET` (R193): `FP_STEP` until ok = 1, then the four payload fields. When `in` runs empty first, the bytes taken stay
consumed and the request holds; listing `FP_GET` again is the receiver going on (log 12). -/
def execFpGet (s : State) : Out :=
  s.needFp
    (match s.receive with
     | .ok (true, t) => t.done (.packet t.pkt.command t.pkt.param1 t.pkt.param2 t.pkt.param3)
     | .ok (false, t) => t.hold
     | .error f => .fault f)

/-- `FP_TRYGET` (R194): `FP_STEP` until ok = 1 or `in` is empty; it never holds. -/
def execFpTryget (s : State) : Out :=
  s.needFp
    (match s.receive with
     | .ok (true, t) => t.done (.okPacket t.pkt.command t.pkt.param1 t.pkt.param2 t.pkt.param3)
     | .ok (false, t) => t.done (.ok false)
     | .error f => .fault f)

/-- `FP_PUT a, b, c, e` (R195): load the send sequencer with the payload and its checksum; hold until it is idle. -/
def execFpPut (a b c e : Byte) (s : State) : Out :=
  s.needFp
    (if s.putIdx == 5 then State.done { s with putBuf := Packet.ofPayload a b c e, putIdx := 0 } .none else s.hold)

/-- `FP_PUT_STEP` (R196): submit the next byte of the packet (`ST_OUT`), in the same atomic step; hold while the sequencer is idle or
`out` is full. -/
def execFpPutStep (s : State) : Out :=
  s.needFp
    (if s.canPush then
      finish ((s.submit (packetByte s.putBuf s.putIdx)).map fun t => { t with putIdx := s.putIdx + 1 }) .none
     else s.hold)

/-- `FRAME` (R102): a data format, not an operation; there is no step to take. -/
def execFrame (_p : Packet) (_s : State) : Out := .refused .notAnOperation

end Machine
end Sys2Proof
end

