-- ==== Sys2Proof/Machine/Lifecycle.lean ====
section
/-!
DEFINITION. The lifecycle family: `ST_INIT` (41_serialtransport.md R150) and `FP_INIT` (42_framing.md R190).
-/
namespace Sys2Proof
namespace Machine

/-- `ST_INIT` (R150): both channels created empty, the receive event enabled, the transmit event disabled. `RXD`, `TXD`, `rx_slot`
and both backing stores are left as they were. A second one is refused (R273). -/
def execStInit (s : State) : Out :=
  if s.stInited then .refused .secondInit
  else
    State.done
      { s with
        inb := s.inb.created
        out := s.out.created
        rxIe := true
        txIe := false
        rxReady := false
        txReady := true
        rxSig := 0
        txSig := 0
        lineIn := []
        lineOut := []
        stInited := true } .none

/-- `FP_INIT` (R190): the window is empty and the send sequencer idle. `w`, `pkt` and `put_buf` are not written. It is refused before
`ST_INIT` and a second time (R273). -/
def execFpInit (s : State) : Out :=
  s.needSt
    (if s.fpInited then .refused .secondInit
     else State.done { s with wcount := 0, putIdx := 5, pktOut := [], fpInited := true } .none)

end Machine
end Sys2Proof
end

