-- ==== Sys2Proof/Machine/SerialTransport.lean ====
section
/-!
DEFINITION. The transport family, 41_serialtransport.md: the two line steps (R151, R158), the two handlers (R152, R156), the
two workers (R153, R157) and the two byte ports (R154, R155).
-/
namespace Sys2Proof
namespace Machine

/-- `ST_IN` (R154): take one received byte; exactly `CH_GET in`. -/
def execStIn (s : State) : Out :=
  s.needSt (if s.hasData .inb then finishByte (s.getFrom .inb) .byte else s.hold)

/-- `ST_OUT a` (R155): put the byte into `out` and enable the transmit event, or hold while `out` is full. -/
def execStOut (a : Byte) (s : State) : Out :=
  s.needSt (if s.hasRoom .out then finish (s.submit a) .none else s.hold)

/-- The body of the receive handler: capture `RXD`, which clears `rx_ready`, and post `rx_sig` (R152). -/
def State.captureByte (s : State) : State :=
  State.postRx { s.takeRxd.2 with rxSlot := s.takeRxd.1 }

/-- `RX_ISR` (R152): the receive interrupt handler. -/
def execRxIsr (s : State) : Out :=
  s.needSt (s.takeInterrupt s.irqRx State.captureByte)

/-- `RX_WORKER` (R153): put the captured byte into `in` and lower `rx_sig`, one atomic step; hold while there is no signal or
`in` is full. -/
def execRxWorker (s : State) : Out :=
  s.needSt
    (if s.canDeliver then finish ((s.putOn .inb s.rxSlot).map State.waitRx) .none else s.hold)

/-- `TX_ISR` (R156): the transmit interrupt handler posts `tx_sig` and nothing else. -/
def execTxIsr (s : State) : Out :=
  s.needSt (s.takeInterrupt s.irqTx State.postTx)

/-- `TX_WORKER` (R157): serve one ready event: send the oldest byte of `out`, or disable the transmit event when there is nothing
to send; hold while there is no signal. -/
def execTxWorker (s : State) : Out :=
  s.needSt
    (if s.canServe then
      (if s.hasData .out then finish ((s.getFrom .out).map fun r => (r.2.writeTxd r.1).waitTx) .none
       else State.done (State.waitTx { s with txIe := false }) .none)
     else s.hold)

/-- `LINE_RX a` (R151): the line delivers one byte; when the previous byte was never read, `LineOverrun`. -/
def execLineRx (a : Byte) (s : State) : Out :=
  s.needSt
    (if s.rxReady then .fault (.lineOverrun a)
     else State.done { s with rxd := a, rxReady := true, lineIn := s.lineIn ++ [a] } .none)

/-- `LINE_TX` (R158): the byte in `TXD` has gone out; hold while nothing is in flight. -/
def execLineTx (s : State) : Out :=
  s.needSt
    (if s.txReady then s.hold
     else State.done { s with lineOut := s.lineOut ++ [s.txd], txReady := true } (.byte s.txd))

end Machine
end Sys2Proof
end

