-- ==== Sys2Proof/Machine/Dispatch.lean ====
section
/-!
DEFINITION. One arm for each constructor of `Instr`.
-/
namespace Sys2Proof
namespace Machine

/-- The meaning of one operation or agent step in a state (30_encoding.md R97). -/
def exec (i : Instr) (s : State) : Host.Outcome State Fault Refusal :=
  match i with
  | .stInit => Sys2Proof.Machine.execStInit s
  | .fpInit => Sys2Proof.Machine.execFpInit s
  | .chPut h a => Sys2Proof.Machine.execChPut h a s
  | .chGet h => Sys2Proof.Machine.execChGet h s
  | .chTryput h a => Sys2Proof.Machine.execChTryput h a s
  | .chTryget h => Sys2Proof.Machine.execChTryget h s
  | .stIn => Sys2Proof.Machine.execStIn s
  | .stOut a => Sys2Proof.Machine.execStOut a s
  | .rxIsr => Sys2Proof.Machine.execRxIsr s
  | .rxWorker => Sys2Proof.Machine.execRxWorker s
  | .txIsr => Sys2Proof.Machine.execTxIsr s
  | .txWorker => Sys2Proof.Machine.execTxWorker s
  | .lineRx a => Sys2Proof.Machine.execLineRx a s
  | .lineTx => Sys2Proof.Machine.execLineTx s
  | .fpStep => Sys2Proof.Machine.execFpStep s
  | .fpGet => Sys2Proof.Machine.execFpGet s
  | .fpTryget => Sys2Proof.Machine.execFpTryget s
  | .fpPut a b c e => Sys2Proof.Machine.execFpPut a b c e s
  | .fpPutStep => Sys2Proof.Machine.execFpPutStep s
  | .frame p => Sys2Proof.Machine.execFrame p s

end Machine
end Sys2Proof
end

