-- ==== Sys2Proof/Machine/Step.lean ====
section
/-!
DEFINITION. One step: the next descriptor of the schedule is taken, decoded and run (95_test_vectors.md section 3). The schedule is the
platform scheduler's choice of which agent's step runs next (60_exceptions.md R236, 70_reset_and_hazards.md R287).
-/
namespace Sys2Proof
namespace Machine

/-- Take the next descriptor and run it. A descriptor that spells no operation is refused (30_encoding.md R98). With nothing
scheduled no agent moves and the state stays as it is (R286; log 9). -/
def step (s : State) : Host.Outcome State Fault Refusal :=
  match s.fetch with
  | none => .next s
  | some (d, t) =>
    match decode d with
    | .ok i => exec i t
    | .error _ => .refused .unknownDescriptor

/-- The state with the descriptor of an opcode-table word put first in the schedule (log 8). -/
def State.withFetchWord (s : State) (nbits w : Nat) : State := s.place (tableWord nbits w)

end Machine
end Sys2Proof
end

