-- ==== Sys2Proof/Safety.lean ====
section
/-!
DEFINITION. The terms in which claims speak of good states and good runs: the channel invariant (10_state.md R25), the ranges of
the counts (R37, R38, R40, R43), the packet, transmit and receive invariants (42_framing.md R203, 41_serialtransport.md R163,
R161), the premises of claims about the reference design (70_reset_and_hazards.md R279, 60_exceptions.md R236), and the
quiescent state (R286).
-/
namespace Sys2Proof
namespace Machine

/-! ### Channels -/

/-- The bytes a channel of `n` slots holds, oldest first: the occupied slots `start, start+1, ...`, `used` of them, `mod n` (R21). -/
def Channel.contents (n : Nat) (c : Channel) : List Byte :=
  (List.range c.used).filterMap fun j => memGet c.mem ((c.start + j) % n)

/-- The channel invariant (R25), the canonical form of the backing store inside its `n` slots, and that every occupied slot
holds a byte (R21: content is meaningful while the slot is occupied). -/
abbrev Channel.good (n : Nat) (c : Channel) : Prop :=
  c.used ≤ n ∧ c.start < n ∧ c.endIdx < n ∧ (c.start + c.used) % n = c.endIdx ∧
    Memory.wf c.mem ∧ (∀ x ∈ c.mem, x.1 < n) ∧ ∀ j < c.used, (memGet c.mem ((c.start + j) % n)).isSome = true

/-! ### Invariants of the machine -/

/-- Both channels are good, the signals and counts are in range, `FP_INIT` has run only after `ST_INIT`, and a pending transmit signal
has the transmitter ready (R156 posts it while ready, R157 lowers it in the step that clears ready). -/
abbrev MachineInv (s : State) : Prop :=
  s.cfg.legal ∧ s.inb.good s.cfg.n ∧ s.out.good s.cfg.n ∧ s.rxSig ≤ Config.sigMax ∧ s.txSig ≤ Config.sigMax ∧
    s.wcount ≤ Config.windowLen ∧ s.putIdx ≤ Config.frameLen ∧ (s.fpInited = true → s.stInited = true) ∧
    (s.txSig = 1 → s.txReady = true)

/-- Every delivered packet is valid (R203), and the current packet is the last one delivered (R41). -/
abbrev PacketInv (s : State) : Prop :=
  (∀ p ∈ s.pktOut, p.valid = true) ∧ ∀ p ∈ s.pktOut.getLast?, s.pkt = p

/-- The transmit invariants (a) and (b) of R163. -/
abbrev TransmitInv (s : State) : Prop :=
  (0 < s.out.used → s.txIe = true) ∧ (s.txSig = 1 → s.txIe = true)

/-- "RX always enabled after init" (R33). -/
abbrev ReceiveEnabledInv (s : State) : Prop := s.stInited = true → s.rxIe = true

/-- The received bytes not yet taken out of `in`, oldest first: those in `in`, the one in `rx_slot` while `rx_sig` is 1, the one in
`RXD` while `rx_ready` is 1 (R160). -/
def State.receivedPending (s : State) : List Byte :=
  s.inb.contents s.cfg.n ++ (if s.rxSig = 1 then [s.rxSlot] else []) ++ (if s.rxReady then [s.rxd] else [])

/-- No received byte is lost, doubled or out of order: what is pending is the end of what the line delivered (R161). -/
abbrev ReceiveInv (s : State) : Prop := s.receivedPending <:+ s.lineIn

/-- The bytes submitted for transmission since `ST_INIT`, in order: sent, in flight in `TXD`, waiting in `out`. -/
def State.transmitStream (s : State) : List Byte :=
  s.lineOut ++ (if s.txReady then [] else [s.txd]) ++ s.out.contents s.cfg.n

/-- The meaningful part of the assembly window: its newest `wcount` bytes, `w[5-wcount] .. w[4]` (R40). -/
def State.windowBytes (s : State) : List Byte := s.w.bytes.drop (Config.windowLen - s.wcount)

/-! ### Premises on a run -/

/-- A direct put on channel `h` by an agent that is not its producer (R279). -/
def putsDirectlyOn (i : Instr) (h : Chan) : Bool :=
  match i with
  | .chPut k _ | .chTryput k _ => k == h
  | .stInit | .fpInit | .chGet _ | .chTryget _ | .stIn | .stOut _ | .rxIsr | .rxWorker | .txIsr | .txWorker | .lineRx _
  | .lineTx | .fpStep | .fpGet | .fpTryget | .fpPut _ _ _ _ | .fpPutStep | .frame _ => false

/-- A direct get on channel `h` by an agent that is not its consumer (R279). -/
def getsDirectlyFrom (i : Instr) (h : Chan) : Bool :=
  match i with
  | .chGet k | .chTryget k => k == h
  | .stInit | .fpInit | .chPut _ _ | .chTryput _ _ | .stIn | .stOut _ | .rxIsr | .rxWorker | .txIsr | .txWorker | .lineRx _
  | .lineTx | .fpStep | .fpGet | .fpTryget | .fpPut _ _ _ _ | .fpPutStep | .frame _ => false

/-- The scheduler's duty of R236 and R287: while a handler's request is 1, no thread-context step is chosen. The step function
does not impose it (R236: "a model may drop the handler-first rule"; log 10). -/
def handlerFirst (i : Instr) (s : State) : Bool :=
  match i.requester with
  | some g => g.context != .thread || !(s.irqRx || s.irqTx)
  | none => false

/-- The quiescent state of R286: no step of the block's own agents (handlers, workers, framing sender, framing receiver inside a
requested `FP_GET`) is enabled, and nothing is in flight, so that `LINE_TX` cannot move the block (log 21). `getInProgress` says whether
an `FP_GET` is in progress, which is a request and no state (R20). DESIGN CHOICE (log 25): a step that R273 refuses is not enabled, so
`put_idx` and an `FP_GET` do not count before `FP_INIT`, and nothing does before `ST_INIT`. -/
def State.quiescent (s : State) (getInProgress : Bool) : Bool :=
  (!s.stInited || (!s.irqRx && !s.irqTx && !s.canDeliver && !s.canServe && s.txReady)) &&
    (!s.fpInited || (!s.canPush && !(getInProgress && s.hasData .inb)))

/-! ### Runs -/

/-- The state after a list of operations run in order by `exec`, stopping at the first fault or refusal: a program of
95_test_vectors.md section 3 with its descriptors decoded. -/
def runOps : List Instr → State → Out
  | [], s => .next s
  | i :: is, s =>
    match exec i s with
    | .next t => runOps is t
    | .fault f => .fault f
    | .refused r => .refused r

/-- The bytes the `FP_STEP`s of a run take, in order, each with the ok bit its step returns: the stream `s_0, s_1, ...` of R200, over
successive `FP_STEP`s with steps of other agents between them. -/
def stepTrace : List Instr → State → List (Byte × Bool)
  | [], _ => []
  | i :: is, s =>
    match exec i s with
    | .next t =>
      (if i = .fpStep then ((s.inb.contents s.cfg.n).take 1).map fun x => (x, decide (t.result = .ok true)) else []) ++
        stepTrace is t
    | .fault _ => []
    | .refused _ => []

/-- The receiver's iterations of a run are all written as `FP_STEP`s (log 12). -/
abbrev stepsOnly (ops : List Instr) : Prop := ∀ i ∈ ops, i ≠ .fpGet ∧ i ≠ .fpTryget

end Machine
end Sys2Proof
end

