-- ==== Sys2Proof/Certificates/Slice0/Obligations.lean ====
section
/-!
DEFINITION. What is claimed of the model, from the numbered rules of spec/. A clause about a held request (a false guard,
00_scope.md R10) says that the state is as it was but for `result`, the model's own field (log 11, log 13). A clause about a get
assumes that the slot read holds a byte, because a slot that nothing has written holds no value (93 U9, log 6); no run
reaches such a slot (`GoodStatesFaultOnlyByLineOverrun`).
-/

open Sys2Proof Sys2Proof.Machine

/-! ### Encodings -/

/-- R102, R96: the decoder gives back every operation it is given the words of, and the frame reader every valid frame. -/
def Obligations.DecodeOfEncode : Prop :=
  ∀ i : Instr, i.wellFormed = true →
    (i.isOperation = true → decode (encode i) = .ok i) ∧
      (i.isOperation = false → decodeFrame (encode i) = .ok i)

/-- R96, R97: a descriptor has one spelling: what decodes is an operation whose words are that descriptor; the same of
frames. -/
def Obligations.EncodeOfDecode : Prop :=
  ∀ (d : Word40) (i : Instr),
    (decode d = .ok i → i.isOperation = true ∧ encode i = d) ∧
      (decodeFrame d = .ok i → i.isOperation = false ∧ i.wellFormed = true ∧ encode i = d)

/-- R102: `d & mask == match` decodes the row, for each of the 19 descriptor rows of opcode_table.json. -/
def Obligations.DecodeAgreesWithOpcodeTable : Prop :=
  ∀ d : Word40,
    (decode d = .ok .stInit ↔ d &&& 0xFFFFFFFFFF#40 = 0x0100000000#40) ∧
    (decode d = .ok .fpInit ↔ d &&& 0xFFFFFFFFFF#40 = 0x0200000000#40) ∧
    ((∃ h a, decode d = .ok (.chPut h a)) ↔ d &&& 0xFE00FFFFFF#40 = 0x1000000000#40) ∧
    ((∃ h, decode d = .ok (.chGet h)) ↔ d &&& 0xFEFFFFFFFF#40 = 0x1200000000#40) ∧
    ((∃ h a, decode d = .ok (.chTryput h a)) ↔ d &&& 0xFE00FFFFFF#40 = 0x1400000000#40) ∧
    ((∃ h, decode d = .ok (.chTryget h)) ↔ d &&& 0xFEFFFFFFFF#40 = 0x1600000000#40) ∧
    (decode d = .ok .stIn ↔ d &&& 0xFFFFFFFFFF#40 = 0x2000000000#40) ∧
    ((∃ a, decode d = .ok (.stOut a)) ↔ d &&& 0xFF00FFFFFF#40 = 0x2100000000#40) ∧
    (decode d = .ok .rxIsr ↔ d &&& 0xFFFFFFFFFF#40 = 0x2200000000#40) ∧
    (decode d = .ok .rxWorker ↔ d &&& 0xFFFFFFFFFF#40 = 0x2300000000#40) ∧
    (decode d = .ok .txIsr ↔ d &&& 0xFFFFFFFFFF#40 = 0x2400000000#40) ∧
    (decode d = .ok .txWorker ↔ d &&& 0xFFFFFFFFFF#40 = 0x2500000000#40) ∧
    ((∃ a, decode d = .ok (.lineRx a)) ↔ d &&& 0xFF00FFFFFF#40 = 0x2800000000#40) ∧
    (decode d = .ok .lineTx ↔ d &&& 0xFFFFFFFFFF#40 = 0x2900000000#40) ∧
    (decode d = .ok .fpStep ↔ d &&& 0xFFFFFFFFFF#40 = 0x3000000000#40) ∧
    (decode d = .ok .fpGet ↔ d &&& 0xFFFFFFFFFF#40 = 0x3100000000#40) ∧
    (decode d = .ok .fpTryget ↔ d &&& 0xFFFFFFFFFF#40 = 0x3200000000#40) ∧
    ((∃ a b c e, decode d = .ok (.fpPut a b c e)) ↔ d &&& 0xFF00000000#40 = 0x3300000000#40) ∧
    (decode d = .ok .fpPutStep ↔ d &&& 0xFFFFFFFFFF#40 = 0x3400000000#40)

/-- Words of 95_test_vectors.md section 2.5 (V79 to V105), one or more of each family. -/
def Obligations.WorkedDescriptorsDecode : Prop :=
  decode 0x0100000000#40 = .ok .stInit ∧ decode 0x0200000000#40 = .ok .fpInit ∧
  decode 0x10AA000000#40 = .ok (.chPut .inb 0xAA#8) ∧ decode 0x11AA000000#40 = .ok (.chPut .out 0xAA#8) ∧
  decode 0x1700000000#40 = .ok (.chTryget .out) ∧ decode 0x2104000000#40 = .ok (.stOut 0x04#8) ∧
  decode 0x28FF000000#40 = .ok (.lineRx 0xFF#8) ∧ decode 0x2500000000#40 = .ok .txWorker ∧
  decode 0x3309760100#40 = .ok (.fpPut 0x09#8 0x76#8 0x01#8 0x00#8) ∧ decode 0x3400000000#40 = .ok .fpPutStep ∧
  decodeFrame 0x097601007E#40 = .ok (.frame ⟨0x09#8, 0x76#8, 0x01#8, 0x00#8, 0x7E#8⟩) ∧
  decodeFrame 0x097601007F#40 = .error .notAFrame

/-- R98: an opcode outside R97's map, or a non-zero byte the format does not use, spells no operation and is refused. -/
def Obligations.UnknownDescriptorIsRefused : Prop :=
  ∀ (s : State) (d : Word40) (rest : List Word40) (op : Nat), s.schedule = d :: rest → op = (d.extractLsb' 32 8).toNat →
    ((op = 0x00 ∨ (0x03 ≤ op ∧ op ≤ 0x0F) ∨ (0x18 ≤ op ∧ op ≤ 0x1F) ∨ op = 0x26 ∨ op = 0x27 ∨
        (0x2A ≤ op ∧ op ≤ 0x2F) ∨ 0x35 ≤ op) →
      step s = .refused .unknownDescriptor) ∧
    (op ∈ [0x01, 0x02, 0x12, 0x13, 0x16, 0x17, 0x20, 0x22, 0x23, 0x24, 0x25, 0x29, 0x30, 0x31, 0x32, 0x34] →
      d.extractLsb' 0 32 ≠ 0#32 → step s = .refused .unknownDescriptor) ∧
    (op ∈ [0x10, 0x11, 0x14, 0x15, 0x21, 0x28] →
      d.extractLsb' 0 24 ≠ 0#24 → step s = .refused .unknownDescriptor)

/-- R90, R93: the layout of the 40-bit string of a frame, the first byte most significant; it is a frame exactly when its last byte
is the exclusive OR of the other four, which is when the exclusive OR of all five is zero; each payload has exactly one
checksum. -/
def Obligations.FrameLayoutAndValidity : Prop :=
  ∀ f : Word40,
    (f = (Packet.ofWord f).command ++ (Packet.ofWord f).param1 ++ (Packet.ofWord f).param2 ++ (Packet.ofWord f).param3 ++
        (Packet.ofWord f).checksum) ∧
    (ack (Packet.ofWord f).command = f.getLsbD 39) ∧
    (code (Packet.ofWord f).command = (f.extractLsb' 32 7).setWidth 8) ∧
    (decodeFrame f = .ok (.frame (Packet.ofWord f)) ↔
      f.extractLsb' 0 8 = f.extractLsb' 32 8 ^^^ f.extractLsb' 24 8 ^^^ f.extractLsb' 16 8 ^^^ f.extractLsb' 8 8) ∧
    (decodeFrame f = .ok (.frame (Packet.ofWord f)) ↔
      f.extractLsb' 32 8 ^^^ f.extractLsb' 24 8 ^^^ f.extractLsb' 16 8 ^^^ f.extractLsb' 8 8 ^^^ f.extractLsb' 0 8 = 0#8) ∧
    ∀ a b c e : Byte, ∃! k : Byte, (Packet.mk a b c e k).valid = true

/-- R92: bit `i` of the checksum is the exclusive OR of bit `i` of the four payload bytes. -/
def Obligations.ChecksumIsBitwiseParity : Prop :=
  ∀ (a b c e : Byte) (i : Nat), i < 8 →
    (cks a b c e).getLsbD i = (((a.getLsbD i ^^ b.getLsbD i) ^^ c.getLsbD i) ^^ e.getLsbD i) ∧
      (Packet.ofPayload a b c e).valid = true ∧ cks a b c e ^^^ a ^^^ b ^^^ c ^^^ e = 0#8

/-- R91: the decode functions `ack` and `code`, the encode function `with_ack`, and that the bit takes part in the checksum like any
other. -/
def Obligations.AcknowledgeBitFunctions : Prop :=
  (∀ x : Byte, ack x = x.getLsbD 7 ∧ code x = (x.extractLsb' 0 7).setWidth 8 ∧ withAck (code x) (ack x) = x) ∧
  (∀ (c : BitVec 7) (a : Bool), withAck (c.setWidth 8) a = BitVec.ofBool a ++ c) ∧
  ∀ x b c e : Byte, cks (x ^^^ 0x80#8) b c e = cks x b c e ^^^ 0x80#8

/-! ### The step -/

/-- The next descriptor of the schedule, when it decodes, is run by `exec` on the state with the rest of the schedule; with nothing
scheduled no agent moves. The schedule is the model's own form of the scheduler's choice (log 8, log 9). -/
def Obligations.StepRunsScheduledOperation : Prop :=
  ∀ s : State,
    (∀ (d : Word40) (rest : List Word40) (i : Instr),
      s.schedule = d :: rest → decode d = .ok i → step s = exec i { s with schedule := rest }) ∧
    (s.schedule = [] → step s = .next s)

/-- R102: `FRAME` is "a data format, not an operation": it has no step, and no descriptor decodes to it. -/
def Obligations.FrameIsNoOperation : Prop :=
  ∀ (p : Packet) (s : State),
    exec (.frame p) s = .refused .notAnOperation ∧ ∀ d : Word40, decode d ≠ .ok (.frame p)

/-! ### Lifecycle -/

/-- R270, R6: at power-on neither part is initialised; the machine has the default parameters. Every other value of
`State.reset` is the model's choice (log 3) and is not claimed. -/
def Obligations.PowerOnState : Prop :=
  State.reset.stInited = false ∧ State.reset.fpInited = false ∧ State.reset.cfg.n = 256 ∧ State.reset.cfg.hasTry = true

/-- R150: `ST_INIT`. -/
def Obligations.StInitCreatesTheTransport : Prop :=
  decode 0x0100000000#40 = .ok .stInit ∧
  ∀ s : State,
    (s.stInited = false →
      exec .stInit s = .next
        { s with
          inb := { s.inb with start := 0, endIdx := 0, used := 0 }
          out := { s.out with start := 0, endIdx := 0, used := 0 }
          rxIe := true, txIe := false, rxReady := false, txReady := true, rxSig := 0, txSig := 0
          lineIn := [], lineOut := [], stInited := true, result := .none }) ∧
    (s.stInited = true → exec .stInit s = .refused .secondInit)

/-- R190: `FP_INIT`. The window, the current packet and the send buffer are left unspecified there, and nothing is claimed of them. -/
def Obligations.FpInitEmptiesWindowAndSequencer : Prop :=
  decode 0x0200000000#40 = .ok .fpInit ∧
  ∀ s : State,
    (s.stInited = true → s.fpInited = false →
      ∃ w p b, exec .fpInit s = .next
        { s with
          w := w, pkt := p, putBuf := b, wcount := 0, putIdx := 5, pktOut := [], fpInited := true, result := .none }) ∧
    (s.stInited = false → exec .fpInit s = .refused .beforeStInit) ∧
    (s.stInited = true → s.fpInited = true → exec .fpInit s = .refused .secondInit)

/-- R273: what is refused before `ST_INIT`, before `FP_INIT` and a second time; U1: the TRY operations are refused on a machine whose
parameter HAS_TRY is false. -/
def Obligations.RequestsOutOfOrderAreRefused : Prop :=
  ∀ (s : State) (h : Chan) (a b c e : Byte),
    (s.stInited = false →
      ∀ i ∈ [Instr.lineRx a, .lineTx, .chPut h a, .chGet h, .stIn, .stOut a, .rxIsr, .rxWorker, .txIsr, .txWorker, .fpInit],
        exec i s = .refused .beforeStInit) ∧
    (s.stInited = false → s.cfg.hasTry = true →
      ∀ i ∈ [Instr.chTryput h a, .chTryget h], exec i s = .refused .beforeStInit) ∧
    (s.stInited = true → s.cfg.hasTry = false →
      ∀ i ∈ [Instr.chTryput h a, .chTryget h], exec i s = .refused .tryNotOffered) ∧
    (s.fpInited = false →
      ∀ i ∈ [Instr.fpStep, .fpGet, .fpTryget, .fpPut a b c e, .fpPutStep], exec i s = .refused .beforeFpInit) ∧
    (s.stInited = true → exec .stInit s = .refused .secondInit) ∧
    (s.stInited = true → s.fpInited = true → exec .fpInit s = .refused .secondInit)

/-! ### ByteChannel -/

/-- R120: `CH_PUT h, a`. -/
def Obligations.ChPutStoresOrHolds : Prop :=
  (∀ a : Byte, decode (.pack 0x10#8 a 0#8 0#8 0#8) = .ok (.chPut .inb a) ∧
    decode (.pack 0x11#8 a 0#8 0#8 0#8) = .ok (.chPut .out a)) ∧
  ∀ (s : State) (h : Chan) (a : Byte), s.stInited = true →
    ((s.chan h).used < s.cfg.n → (s.chan h).endIdx < s.cfg.n →
      ∃ m, exec (.chPut h a) s = .next
          { s.setChan h { s.chan h with mem := m, endIdx := ((s.chan h).endIdx + 1) % s.cfg.n, used := (s.chan h).used + 1 } with
            result := .none } ∧
        memGet m (s.chan h).endIdx = some a ∧
        ∀ j, j ≠ (s.chan h).endIdx → memGet m j = memGet (s.chan h).mem j) ∧
    (s.cfg.n ≤ (s.chan h).used → ∃ r, exec (.chPut h a) s = .next { s with result := r })

/-- R121: `CH_GET h`. -/
def Obligations.ChGetTakesOldestOrHolds : Prop :=
  decode 0x1200000000#40 = .ok (.chGet .inb) ∧ decode 0x1300000000#40 = .ok (.chGet .out) ∧
  ∀ (s : State) (h : Chan), s.stInited = true →
    (∀ v, 0 < (s.chan h).used → (s.chan h).start < s.cfg.n → memGet (s.chan h).mem (s.chan h).start = some v →
      exec (.chGet h) s = .next
        { s.setChan h { s.chan h with start := ((s.chan h).start + 1) % s.cfg.n, used := (s.chan h).used - 1 } with
          result := .byte v }) ∧
    ((s.chan h).used = 0 → ∃ r, exec (.chGet h) s = .next { s with result := r })

/-- R122: `CH_TRYPUT h, a`. -/
def Obligations.ChTryputNeverHolds : Prop :=
  (∀ a : Byte, decode (.pack 0x14#8 a 0#8 0#8 0#8) = .ok (.chTryput .inb a) ∧
    decode (.pack 0x15#8 a 0#8 0#8 0#8) = .ok (.chTryput .out a)) ∧
  ∀ (s : State) (h : Chan) (a : Byte), s.cfg.hasTry = true → s.stInited = true →
    ((s.chan h).used < s.cfg.n → (s.chan h).endIdx < s.cfg.n →
      ∃ m, exec (.chTryput h a) s = .next
          { s.setChan h { s.chan h with mem := m, endIdx := ((s.chan h).endIdx + 1) % s.cfg.n, used := (s.chan h).used + 1 } with
            result := .ok true } ∧
        memGet m (s.chan h).endIdx = some a ∧
        ∀ j, j ≠ (s.chan h).endIdx → memGet m j = memGet (s.chan h).mem j) ∧
    (s.cfg.n ≤ (s.chan h).used → exec (.chTryput h a) s = .next { s with result := .ok false })

/-- R123: `CH_TRYGET h`. -/
def Obligations.ChTrygetNeverHolds : Prop :=
  decode 0x1600000000#40 = .ok (.chTryget .inb) ∧ decode 0x1700000000#40 = .ok (.chTryget .out) ∧
  ∀ (s : State) (h : Chan), s.cfg.hasTry = true → s.stInited = true →
    (∀ v, 0 < (s.chan h).used → (s.chan h).start < s.cfg.n → memGet (s.chan h).mem (s.chan h).start = some v →
      exec (.chTryget h) s = .next
        { s.setChan h { s.chan h with start := ((s.chan h).start + 1) % s.cfg.n, used := (s.chan h).used - 1 } with
          result := .okByte v }) ∧
    ((s.chan h).used = 0 → exec (.chTryget h) s = .next { s with result := .ok false })

/-- R72, R128: on a good channel a put adds its byte behind the bytes held, and a get takes the first of them: the ring buffer is a
queue. -/
def Obligations.ChannelIsAQueue : Prop :=
  ∀ (n : Nat) (h : Chan) (c : Channel), c.good n →
    (∀ a, c.used < n → ∃ d, c.putByte n h a = .ok d ∧ d.good n ∧ d.contents n = c.contents n ++ [a]) ∧
    (0 < c.used → ∃ v d, c.getByte n h = .ok (v, d) ∧ d.good n ∧ c.contents n = v :: d.contents n) ∧
    (c.contents n).length = c.used

/-- R128: the bytes put into an empty channel come out in the same order, for as many puts as the channel has slots: the puts
succeed, and the `j`-th of the following gets returns the `j`-th byte put. -/
def Obligations.BytesComeOutInTheOrderPut : Prop :=
  ∀ (s : State) (h : Chan) (bs : List Byte) (j : Nat) (v : Byte), MachineInv s → s.stInited = true → (s.chan h).used = 0 →
    bs.length ≤ s.cfg.n → bs[j]? = some v →
    ∃ t, runOps (bs.map (.chPut h) ++ List.replicate (j + 1) (.chGet h)) s = .next t ∧ t.result = .byte v ∧
      (t.chan h).used = bs.length - (j + 1)

/-- R129: on a full channel a put holds; after one get, which returns the oldest byte, the put completes, and its byte is the newest. -/
def Obligations.HeldPutCompletesAfterAGet : Prop :=
  ∀ (s : State) (h : Chan) (a : Byte), MachineInv s → s.stInited = true → (s.chan h).used = s.cfg.n →
    (∃ r, exec (.chPut h a) s = .next { s with result := r }) ∧
    ∃ v rest t u, (s.chan h).contents s.cfg.n = v :: rest ∧ exec (.chGet h) s = .next t ∧ t.result = .byte v ∧
      exec (.chPut h a) t = .next u ∧ (u.chan h).used = s.cfg.n ∧ (u.chan h).contents s.cfg.n = rest ++ [a]

/-! ### SerialTransport -/

/-- R151: `LINE_RX a`. -/
def Obligations.LineRxDeliversOrOverruns : Prop :=
  (∀ a : Byte, decode (.pack 0x28#8 a 0#8 0#8 0#8) = .ok (.lineRx a)) ∧
  ∀ (s : State) (a : Byte), s.stInited = true →
    (s.rxReady = false →
      exec (.lineRx a) s = .next { s with rxd := a, rxReady := true, lineIn := s.lineIn ++ [a], result := .none }) ∧
    (s.rxReady = true → exec (.lineRx a) s = .fault (.lineOverrun a))

/-- R152: `RX_ISR`. -/
def Obligations.RxIsrCapturesOneByte : Prop :=
  decode 0x2200000000#40 = .ok .rxIsr ∧
  ∀ s : State, s.stInited = true →
    (s.rxReady = true → s.rxIe = true → s.rxSig = 0 →
      exec .rxIsr s = .next { s with rxSlot := s.rxd, rxReady := false, rxSig := 1, result := .none }) ∧
    (¬(s.rxReady = true ∧ s.rxIe = true ∧ s.rxSig = 0) → ∃ r, exec .rxIsr s = .next { s with result := r })

/-- R153: `RX_WORKER`. -/
def Obligations.RxWorkerDeliversTheSlot : Prop :=
  decode 0x2300000000#40 = .ok .rxWorker ∧
  ∀ s : State, s.stInited = true →
    (s.rxSig = 1 → s.inb.used < s.cfg.n → s.inb.endIdx < s.cfg.n →
      ∃ m, exec .rxWorker s = .next
          { s with
            inb := { s.inb with mem := m, endIdx := (s.inb.endIdx + 1) % s.cfg.n, used := s.inb.used + 1 }
            rxSig := 0, result := .none } ∧
        memGet m s.inb.endIdx = some s.rxSlot ∧ ∀ j, j ≠ s.inb.endIdx → memGet m j = memGet s.inb.mem j) ∧
    (¬(s.rxSig = 1 ∧ s.inb.used < s.cfg.n) → ∃ r, exec .rxWorker s = .next { s with result := r })

/-- R154: `ST_IN`; "exactly `CH_GET in`". -/
def Obligations.StInTakesOneReceivedByte : Prop :=
  decode 0x2000000000#40 = .ok .stIn ∧
  ∀ s : State,
    exec .stIn s = exec (.chGet .inb) s ∧
    (s.stInited = true →
      (∀ v, 0 < s.inb.used → s.inb.start < s.cfg.n → memGet s.inb.mem s.inb.start = some v →
        exec .stIn s = .next
          { s with
            inb := { s.inb with start := (s.inb.start + 1) % s.cfg.n, used := s.inb.used - 1 }, result := .byte v }) ∧
      (s.inb.used = 0 → ∃ r, exec .stIn s = .next { s with result := r }))

/-- R155: `ST_OUT a`. -/
def Obligations.StOutPutsAndEnables : Prop :=
  (∀ a : Byte, decode (.pack 0x21#8 a 0#8 0#8 0#8) = .ok (.stOut a)) ∧
  ∀ (s : State) (a : Byte), s.stInited = true →
    (s.out.used < s.cfg.n → s.out.endIdx < s.cfg.n →
      ∃ m, exec (.stOut a) s = .next
          { s with
            out := { s.out with mem := m, endIdx := (s.out.endIdx + 1) % s.cfg.n, used := s.out.used + 1 }
            txIe := true, result := .none } ∧
        memGet m s.out.endIdx = some a ∧ ∀ j, j ≠ s.out.endIdx → memGet m j = memGet s.out.mem j) ∧
    (s.cfg.n ≤ s.out.used → ∃ r, exec (.stOut a) s = .next { s with result := r })

/-- R156: `TX_ISR`. -/
def Obligations.TxIsrSignalsTheWorker : Prop :=
  decode 0x2400000000#40 = .ok .txIsr ∧
  ∀ s : State, s.stInited = true →
    (s.txReady = true → s.txIe = true → s.txSig = 0 → exec .txIsr s = .next { s with txSig := 1, result := .none }) ∧
    (¬(s.txReady = true ∧ s.txIe = true ∧ s.txSig = 0) → ∃ r, exec .txIsr s = .next { s with result := r })

/-- R157: `TX_WORKER`. -/
def Obligations.TxWorkerSendsOrDisables : Prop :=
  decode 0x2500000000#40 = .ok .txWorker ∧
  ∀ s : State, s.stInited = true →
    (∀ v, s.txSig = 1 → 0 < s.out.used → s.out.start < s.cfg.n → memGet s.out.mem s.out.start = some v →
      exec .txWorker s = .next
        { s with
          out := { s.out with start := (s.out.start + 1) % s.cfg.n, used := s.out.used - 1 }
          txd := v, txReady := false, txSig := 0, result := .none }) ∧
    (s.txSig = 1 → s.out.used = 0 → exec .txWorker s = .next { s with txIe := false, txSig := 0, result := .none }) ∧
    (s.txSig ≠ 1 → ∃ r, exec .txWorker s = .next { s with result := r })

/-- R158: `LINE_TX`. -/
def Obligations.LineTxSendsTheByteInFlight : Prop :=
  decode 0x2900000000#40 = .ok .lineTx ∧
  ∀ s : State, s.stInited = true →
    (s.txReady = false →
      exec .lineTx s = .next { s with lineOut := s.lineOut ++ [s.txd], txReady := true, result := .byte s.txd }) ∧
    (s.txReady = true → ∃ r, exec .lineTx s = .next { s with result := r })

/-- R236: when both requests are 1 either handler may run first; the result is the same. -/
def Obligations.HandlersCommute : Prop :=
  ∀ s : State, s.stInited = true → s.irqRx = true → s.irqTx = true →
    ∃ t, runOps [.rxIsr, .txIsr] s = .next t ∧ runOps [.txIsr, .rxIsr] s = .next t ∧ t.rxSig = 1 ∧ t.txSig = 1 ∧
      t.rxSlot = s.rxd

/-- R159: the transmit-enable state machine, over every operation: it leaves DISABLED only by a put of `ST_OUT` (also inside
`FP_PUT_STEP`, R196), leaves ENABLED only by a `TX_WORKER` that finds `out` empty or by `ST_INIT`, is disabled after each of those two
and enabled after every such put. -/
def Obligations.TransmitEnableMachine : Prop :=
  ∀ (i : Instr) (s t : State), exec i s = .next t →
    (s.txIe = false → t.txIe = true → (∃ a, i = .stOut a) ∨ i = .fpPutStep) ∧
    (s.txIe = true → t.txIe = false → (i = .txWorker ∧ s.txSig = 1 ∧ s.out.used = 0) ∨ i = .stInit) ∧
    ((i = .txWorker ∧ s.txSig = 1 ∧ s.out.used = 0) ∨ i = .stInit → t.txIe = false) ∧
    (((∃ a, i = .stOut a) ∨ i = .fpPutStep) → t.out.used = s.out.used + 1 → t.txIe = true)

/-- R160: while `in` is full and one byte waits in `rx_slot` and one in `RXD`, the worker and the handler hold and one more byte of
the line is an overrun; the block never holds more than `N + 2` received bytes. -/
def Obligations.ReceiveBackPressure : Prop :=
  ∀ (s : State) (a : Byte), MachineInv s → s.stInited = true →
    (s.inb.used = s.cfg.n → s.rxSig = 1 → s.rxReady = true →
      s.receivedPending.length = s.cfg.n + 2 ∧
      (∃ r, exec .rxWorker s = .next { s with result := r }) ∧ (∃ r, exec .rxIsr s = .next { s with result := r }) ∧
      exec (.lineRx a) s = .fault (.lineOverrun a)) ∧
    s.receivedPending.length ≤ s.cfg.n + 2

/-- R101: `RX_BYTE a` carries one byte from the line into `in`, when nothing waits before it and `in` has room. -/
def Obligations.RxByteCarriesOneByteIn : Prop :=
  ∀ (s : State) (a : Byte), MachineInv s → s.stInited = true → s.rxReady = false → s.rxIe = true → s.rxSig = 0 →
    s.inb.used < s.cfg.n →
    ∃ t, runOps (Instr.rxByte a) s = .next t ∧ t.inb.contents t.cfg.n = s.inb.contents s.cfg.n ++ [a] ∧
      t.lineIn = s.lineIn ++ [a] ∧ t.rxReady = false ∧ t.rxSig = 0 ∧ t.out = s.out

/-- R101: `TX_BYTE` carries the oldest byte of `out` onto the line, when the transmitter is ready and enabled. -/
def Obligations.TxByteCarriesOneByteOut : Prop :=
  ∀ (s : State) (v : Byte) (rest : List Byte), MachineInv s → s.stInited = true → s.txReady = true → s.txIe = true →
    s.txSig = 0 → s.out.contents s.cfg.n = v :: rest →
    ∃ t, runOps Instr.txByte s = .next t ∧ t.out.contents t.cfg.n = rest ∧ t.lineOut = s.lineOut ++ [v] ∧
      t.result = .byte v ∧ t.txReady = true ∧ t.txSig = 0 ∧ t.txIe = true ∧ t.inb = s.inb

/-! ### FramingProtocol -/

/-- R192: `FP_STEP`. -/
def Obligations.FpStepSlidesAndTests : Prop :=
  decode 0x3000000000#40 = .ok .fpStep ∧
  ∀ s : State, s.fpInited = true →
    (∀ x, 0 < s.inb.used → s.inb.start < s.cfg.n → memGet s.inb.mem s.inb.start = some x →
      exec .fpStep s = .next
        (if min (s.wcount + 1) 5 = 5 ∧ s.w.param1 ^^^ s.w.param2 ^^^ s.w.param3 ^^^ s.w.checksum = x then
          { s with
            inb := { s.inb with start := (s.inb.start + 1) % s.cfg.n, used := s.inb.used - 1 }
            w := ⟨s.w.param1, s.w.param2, s.w.param3, s.w.checksum, x⟩
            wcount := 0
            pkt := ⟨s.w.param1, s.w.param2, s.w.param3, s.w.checksum, x⟩
            pktOut := s.pktOut ++ [⟨s.w.param1, s.w.param2, s.w.param3, s.w.checksum, x⟩]
            result := .ok true }
        else
          { s with
            inb := { s.inb with start := (s.inb.start + 1) % s.cfg.n, used := s.inb.used - 1 }
            w := ⟨s.w.param1, s.w.param2, s.w.param3, s.w.checksum, x⟩
            wcount := min (s.wcount + 1) 5
            result := .ok false })) ∧
    (s.inb.used = 0 → ∃ r, exec .fpStep s = .next { s with result := r })

/-- R193: `FP_GET` is `FP_STEP` repeated until ok = 1; it holds while `in` is empty. One run of it here goes on while `in` has bytes
(log 12). -/
def Obligations.FpGetRepeatsFpStep : Prop :=
  decode 0x3100000000#40 = .ok .fpGet ∧
  ∀ s : State, s.fpInited = true →
    (∀ t, 0 < s.inb.used → exec .fpStep s = .next t → t.result = .ok true →
      exec .fpGet s = .next { t with result := .packet t.pkt.command t.pkt.param1 t.pkt.param2 t.pkt.param3 }) ∧
    (∀ t, 0 < s.inb.used → exec .fpStep s = .next t → t.result = .ok false → exec .fpGet s = exec .fpGet t) ∧
    (s.inb.used = 0 → ∃ r, exec .fpGet s = .next { s with result := r })

/-- R194: `FP_TRYGET` is `FP_STEP` repeated until ok = 1 or `in` is empty; then ok = 0 and every register keeps its value. One run
of it here is uninterrupted (log 12). -/
def Obligations.FpTrygetRepeatsFpStep : Prop :=
  decode 0x3200000000#40 = .ok .fpTryget ∧
  ∀ s : State, s.fpInited = true →
    (∀ t, 0 < s.inb.used → exec .fpStep s = .next t → t.result = .ok true →
      exec .fpTryget s = .next { t with result := .okPacket t.pkt.command t.pkt.param1 t.pkt.param2 t.pkt.param3 }) ∧
    (∀ t, 0 < s.inb.used → exec .fpStep s = .next t → t.result = .ok false → exec .fpTryget s = exec .fpTryget t) ∧
    (s.inb.used = 0 → exec .fpTryget s = .next { s with result := .ok false })

/-- R194: a call that finds too few bytes for a packet takes them all, answers ok = 0, and keeps the window for the next call. -/
def Obligations.FpTrygetKeepsAPartialFrame : Prop :=
  ∀ s : State, MachineInv s → s.fpInited = true → s.wcount + s.inb.used < 5 →
    ∃ t, exec .fpTryget s = .next t ∧ t.result = .ok false ∧ t.inb.used = 0 ∧ t.wcount = s.wcount + s.inb.used ∧
      t.windowBytes = s.windowBytes ++ s.inb.contents s.cfg.n ∧ t.pkt = s.pkt ∧ t.pktOut = s.pktOut

/-- R199: put then get. (1) Over successive `FP_STEP`s with steps of other agents between them, for every `N`: if the receiver starts from an
empty window and the bytes it takes are `[a, b, c, e, a^b^c^e]`, the first four steps return ok = 0 and the fifth ok = 1 with that
packet. (2) With the five bytes at the head of `in`, `FP_GET` and `FP_TRYGET` return the four fields and consume exactly five bytes. (3) The
bytes that `FP_SEND` submits, standing at the head of `in` of any receiver with an empty window, come back from `FP_GET` as the four
fields of the `FP_PUT`. (The spec marks the exact form as derived.) -/
def Obligations.PutThenGetReturnsThePayload : Prop :=
  (∀ (ops : List Instr) (s t : State) (a b c e : Byte), s.fpInited = true → s.wcount = 0 → stepsOnly ops →
    runOps ops s = .next t → (stepTrace ops s).map (·.1) = [a, b, c, e, a ^^^ b ^^^ c ^^^ e] →
    (stepTrace ops s).map (·.2) = [false, false, false, false, true] ∧ t.wcount = 0 ∧
      t.pkt = ⟨a, b, c, e, a ^^^ b ^^^ c ^^^ e⟩ ∧ t.pktOut = s.pktOut ++ [⟨a, b, c, e, a ^^^ b ^^^ c ^^^ e⟩]) ∧
  (∀ (s : State) (a b c e : Byte) (rest : List Byte), MachineInv s → s.fpInited = true → s.wcount = 0 →
    s.inb.contents s.cfg.n = [a, b, c, e, a ^^^ b ^^^ c ^^^ e] ++ rest →
    ∃ t : State, exec .fpGet s = .next { t with result := .packet a b c e } ∧
      exec .fpTryget s = .next { t with result := .okPacket a b c e } ∧
      t.inb.contents t.cfg.n = rest ∧ t.wcount = 0 ∧ t.pkt = ⟨a, b, c, e, a ^^^ b ^^^ c ^^^ e⟩ ∧
      t.pktOut = s.pktOut ++ [⟨a, b, c, e, a ^^^ b ^^^ c ^^^ e⟩]) ∧
  ∀ (s : State) (a b c e : Byte), MachineInv s → s.fpInited = true → s.putIdx = 5 → s.out.used + 5 ≤ s.cfg.n →
    ∃ (t : State) (sent : List Byte), runOps (Instr.fpSend a b c e) s = .next t ∧
      t.out.contents t.cfg.n = s.out.contents s.cfg.n ++ sent ∧
      ∀ (r : State) (rest : List Byte), MachineInv r → r.fpInited = true → r.wcount = 0 →
        r.inb.contents r.cfg.n = sent ++ rest → ∃ u, exec .fpGet r = .next u ∧ u.result = .packet a b c e

/-- R200: resynchronisation after `k` bytes of noise followed by a valid frame, from an empty window, if no five consecutive bytes
that begin inside the noise satisfy R93. (1) Over successive `FP_STEP`s with steps of other agents between them, for every `k` and
every `N`: the step that consumes the frame's last byte, the one numbered `k + 5`, is the first to return ok = 1, and it delivers the
frame. (2) With all `k + 5` bytes at the head of `in` (so `k + 5 <= N`), one `FP_GET` delivers the frame and has consumed exactly `k + 5` bytes.
(The spec marks the exact form, with its premise, as derived.) -/
def Obligations.ResynchronisesAfterCleanNoise : Prop :=
  ∀ (s : State) (noise : List Byte) (p : Packet), s.fpInited = true → s.wcount = 0 → p.valid = true →
    (∀ (i : Nat) (q : Packet), i < noise.length → ((noise ++ p.bytes).drop i).take 5 = q.bytes → q.valid = false) →
    (∀ (ops : List Instr) (t : State), stepsOnly ops → runOps ops s = .next t →
      (stepTrace ops s).map (·.1) = noise ++ p.bytes →
      (stepTrace ops s).map (·.2) = List.replicate (noise.length + 4) false ++ [true] ∧ t.pkt = p ∧ t.wcount = 0 ∧
        t.pktOut = s.pktOut ++ [p]) ∧
    ∀ rest : List Byte, MachineInv s → s.inb.contents s.cfg.n = noise ++ p.bytes ++ rest →
      ∃ t, exec .fpGet s = .next t ∧ t.result = .packet p.command p.param1 p.param2 p.param3 ∧ t.pkt = p ∧ t.wcount = 0 ∧
        t.pktOut = s.pktOut ++ [p] ∧ t.inb.contents t.cfg.n = rest ∧ t.inb.used + (noise.length + 5) = s.inb.used

/-- R201: a success resets the window, so none of the next four bytes completes a test, whatever the bytes are, and a valid frame that
starts inside the delivered one is lost. (1) Over successive `FP_STEP`s with steps of other agents between them, for every `N`: a valid
five bytes taken from an empty window are delivered, and each of up to four steps after them returns ok = 0, although the window
then holds the last five bytes taken, which may be a valid frame. (2) The same of `FP_GET` and one `FP_STEP` after it; with
`04 01 02 03 04` and `04` this is the spec's example. -/
def Obligations.OverlappingFrameIsLost : Prop :=
  ∀ (s : State) (p : Packet), s.fpInited = true → s.wcount = 0 → p.valid = true →
    (∀ (ops : List Instr) (t : State) (xs : List Byte), stepsOnly ops → runOps ops s = .next t → xs.length ≤ 4 →
      (stepTrace ops s).map (·.1) = p.bytes ++ xs →
      (stepTrace ops s).map (·.2) = [false, false, false, false, true] ++ List.replicate xs.length false ∧
        t.w.bytes = (p.bytes ++ xs).drop xs.length ∧ t.wcount = xs.length ∧ t.pkt = p ∧ t.pktOut = s.pktOut ++ [p]) ∧
    ∀ (x : Byte) (rest : List Byte), MachineInv s → s.inb.contents s.cfg.n = p.bytes ++ [x] ++ rest →
      ∃ t u : State, exec .fpGet s = .next t ∧ t.result = .packet p.command p.param1 p.param2 p.param3 ∧
        exec .fpStep t = .next u ∧ u.result = .ok false ∧ u.wcount = 1 ∧
        u.w = ⟨p.param1, p.param2, p.param3, p.checksum, x⟩ ∧ u.pktOut = s.pktOut ++ [p]

/-- R40: the elements of the window below the newest `wcount` hold no meaningful value and are never tested: two states that differ
in them alone do the same on the next byte. -/
def Obligations.StaleWindowBytesAreNeverTested : Prop :=
  ∀ (s s' t : State) (w : Packet), s.wcount ≤ 5 → s' = { s with w := w } → s'.windowBytes = s.windowBytes →
    exec .fpStep s = .next t →
    ∃ t', exec .fpStep s' = .next t' ∧ t' = { t with w := t'.w } ∧ t'.windowBytes = t.windowBytes

/-- R195: `FP_PUT a, b, c, e`. -/
def Obligations.FpPutLoadsTheSequencer : Prop :=
  (∀ a b c e : Byte, decode (.pack 0x33#8 a b c e) = .ok (.fpPut a b c e)) ∧
  ∀ (s : State) (a b c e : Byte), s.fpInited = true →
    (s.putIdx = 5 →
      exec (.fpPut a b c e) s = .next { s with putBuf := ⟨a, b, c, e, a ^^^ b ^^^ c ^^^ e⟩, putIdx := 0, result := .none }) ∧
    (s.putIdx ≠ 5 → ∃ r, exec (.fpPut a b c e) s = .next { s with result := r })

/-- R196: `FP_PUT_STEP`. -/
def Obligations.FpPutStepPushesTheNextByte : Prop :=
  decode 0x3400000000#40 = .ok .fpPutStep ∧
  ∀ s : State, s.fpInited = true →
    (∀ v, s.putBuf.bytes[s.putIdx]? = some v → s.out.used < s.cfg.n → s.out.endIdx < s.cfg.n →
      ∃ m, exec .fpPutStep s = .next
          { s with
            out := { s.out with mem := m, endIdx := (s.out.endIdx + 1) % s.cfg.n, used := s.out.used + 1 }
            txIe := true, putIdx := s.putIdx + 1, result := .none } ∧
        memGet m s.out.endIdx = some v ∧ ∀ j, j ≠ s.out.endIdx → memGet m j = memGet s.out.mem j) ∧
    (¬(s.putIdx < 5 ∧ s.out.used < s.cfg.n) → ∃ r, exec .fpPutStep s = .next { s with result := r })

/-- R101, R195, R196: `FP_SEND a, b, c, e` on an idle sequencer with room for five bytes submits exactly the frame, in wire order, and
leaves the sequencer idle and the transmit event enabled. -/
def Obligations.FpSendSubmitsTheFrame : Prop :=
  ∀ (s : State) (a b c e : Byte), MachineInv s → s.fpInited = true → s.putIdx = 5 → s.out.used + 5 ≤ s.cfg.n →
    ∃ t, runOps (Instr.fpSend a b c e) s = .next t ∧
      t.out.contents t.cfg.n = s.out.contents s.cfg.n ++ [a, b, c, e, a ^^^ b ^^^ c ^^^ e] ∧
      t.transmitStream = s.transmitStream ++ [a, b, c, e, a ^^^ b ^^^ c ^^^ e] ∧ t.putIdx = 5 ∧ t.txIe = true ∧ t.inb = s.inb

/-! ### Frames -/

/-- Frame of the channel operations (R120 to R123): only the selected channel changes. A put leaves `start` and every slot but the one
at the old `end`; a get leaves `end` and every slot. -/
def Obligations.FrameOfChannelOperations : Prop :=
  ∀ (s t : State) (h : Chan) (a : Byte),
    (exec (.chPut h a) s = .next t ∨ exec (.chTryput h a) s = .next t →
      t = { s.setChan h (t.chan h) with result := t.result } ∧ (t.chan h).start = (s.chan h).start ∧
        ∀ j, j ≠ (s.chan h).endIdx → memGet (t.chan h).mem j = memGet (s.chan h).mem j) ∧
    (exec (.chGet h) s = .next t ∨ exec (.chTryget h) s = .next t →
      t = { s.setChan h { s.chan h with start := (t.chan h).start, used := (t.chan h).used } with result := t.result })

/-- Frame of the two handlers (R240, R152, R156) and of the two line steps (R151, R158, R287): no channel is touched. The receive handler
writes `rx_slot`, `rx_ready`, `rx_sig`, the transmit handler `tx_sig` only; the line writes `RXD` and `rx_ready`, or `tx_ready`, and the history
of its own side. -/
def Obligations.FrameOfHandlersAndLine : Prop :=
  ∀ (s t : State) (a : Byte),
    (exec .rxIsr s = .next t →
      t = { s with rxSlot := t.rxSlot, rxReady := t.rxReady, rxSig := t.rxSig, result := t.result }) ∧
    (exec .txIsr s = .next t → t = { s with txSig := t.txSig, result := t.result }) ∧
    (exec (.lineRx a) s = .next t →
      t = { s with rxd := t.rxd, rxReady := t.rxReady, lineIn := t.lineIn, result := t.result }) ∧
    (exec .lineTx s = .next t →
      t = { s with txReady := t.txReady, lineOut := t.lineOut, result := t.result })

/-- Frame of the two workers and the two byte ports (R153, R154, R155, R157). Each touches one channel; a put leaves `start` and every
slot but the one at the old `end`, a get leaves `end` and every slot. -/
def Obligations.FrameOfWorkersAndPorts : Prop :=
  ∀ (s t : State) (a : Byte),
    (exec .rxWorker s = .next t →
      t = { s with
            inb := { t.inb with start := s.inb.start }, rxSig := t.rxSig, result := t.result } ∧
        ∀ j, j ≠ s.inb.endIdx → memGet t.inb.mem j = memGet s.inb.mem j) ∧
    (exec .stIn s = .next t →
      t = { s with inb := { s.inb with start := t.inb.start, used := t.inb.used }, result := t.result }) ∧
    (exec (.stOut a) s = .next t →
      t = { s with
            out := { t.out with start := s.out.start }, txIe := t.txIe, result := t.result } ∧
        ∀ j, j ≠ s.out.endIdx → memGet t.out.mem j = memGet s.out.mem j) ∧
    (exec .txWorker s = .next t →
      t = { s with
            out := { s.out with start := t.out.start, used := t.out.used }
            txd := t.txd, txReady := t.txReady, txIe := t.txIe, txSig := t.txSig, result := t.result })

/-- Frame of the receive operations (R192, R193, R194): the read side of `in`, the window, the current packet and its history; no slot
of a backing store and nothing of the transmit side changes. -/
def Obligations.FrameOfFramingReceive : Prop :=
  ∀ (i : Instr) (s t : State), i = .fpStep ∨ i = .fpGet ∨ i = .fpTryget → exec i s = .next t →
    t = { s with
          inb := { s.inb with start := t.inb.start, used := t.inb.used }
          w := t.w, wcount := t.wcount, pkt := t.pkt, pktOut := t.pktOut, result := t.result }

/-- Frame of the send operations (R195, R196): `FP_PUT` writes the sequencer only; `FP_PUT_STEP` writes `put_idx` and what `ST_OUT` writes, in
`out` only the slot at the old `end`. -/
def Obligations.FrameOfFramingSend : Prop :=
  ∀ (s t : State) (a b c e : Byte),
    (exec (.fpPut a b c e) s = .next t → t = { s with putBuf := t.putBuf, putIdx := t.putIdx, result := t.result }) ∧
    (exec .fpPutStep s = .next t →
      t = { s with
            out := { t.out with start := s.out.start }, txIe := t.txIe, putIdx := t.putIdx, result := t.result } ∧
        ∀ j, j ≠ s.out.endIdx → memGet t.out.mem j = memGet s.out.mem j)

/-! ### Invariants of every step -/

/-- The invariants hold at power-on (with the values log 3 names). -/
def Obligations.InvariantsHoldAtPowerOn : Prop :=
  MachineInv State.reset ∧ PacketInv State.reset ∧ TransmitInv State.reset ∧ ReceiveEnabledInv State.reset ∧
    ReceiveInv State.reset

/-- R25, R127 and the ranges of R37, R38, R40, R43: every step keeps the channel invariant of both channels, the canonical form of
both backing stores, a byte in every occupied slot, the counts in range, and the transmitter ready while its signal is pending. -/
def Obligations.StepKeepsMachineInv : Prop :=
  ∀ s t : State, MachineInv s → step s = .next t → MachineInv t

/-- R203, R41: only checksum-valid packets are ever delivered, and the current packet stays the last of them. -/
def Obligations.StepKeepsPacketInv : Prop :=
  ∀ s t : State, PacketInv s → step s = .next t → PacketInv t

/-- R163: a byte waiting in `out`, and a pending transmit signal, always have the transmit event enabled, in runs without a direct put
on `out` (the premise of R163, R279). -/
def Obligations.StepKeepsTransmitInv : Prop :=
  ∀ (i : Instr) (s t : State), MachineInv s → TransmitInv s → putsDirectlyOn i .out = false → exec i s = .next t →
    TransmitInv t

/-- R161: no received byte is lost, doubled or overtaken, in runs without a direct put on `in` (R279). What is pending stays the end of
what the line delivered; and, after `ST_INIT`, every operation leaves the pending bytes as they were, but that a `LINE_RX` adds its
operand at their end, a get on `in` (`ST_IN`, `FP_STEP`, a direct one) takes the first of them, and `FP_GET` and `FP_TRYGET` take first ones,
each as many as `in` got shorter. -/
def Obligations.StepKeepsReceiveOrder : Prop :=
  ∀ (i : Instr) (s t : State), MachineInv s → putsDirectlyOn i .inb = false → exec i s = .next t →
    (ReceiveInv s → ReceiveInv t) ∧
    (s.stInited = true →
      (t.receivedPending = s.receivedPending ∧ ∀ a, i ≠ .lineRx a) ∨
      (∃ a, i = .lineRx a ∧ t.receivedPending = s.receivedPending ++ [a]) ∨
      (∃ v, (i = .stIn ∨ i = .fpStep ∨ getsDirectlyFrom i .inb = true) ∧ s.receivedPending = v :: t.receivedPending ∧
        t.inb.used + 1 = s.inb.used) ∨
      (∃ vs, (i = .fpGet ∨ i = .fpTryget) ∧ s.receivedPending = vs ++ t.receivedPending ∧
        t.inb.used + vs.length = s.inb.used))

/-- R161, R74: bytes are transmitted in submission order: after `ST_INIT`, every operation of the reference design (no direct
operation on `out`, R279) leaves the stream sent, in flight and waiting as it was, but for the byte a successful `ST_OUT` or
`FP_PUT_STEP` adds at its end. -/
def Obligations.TransmissionKeepsSubmissionOrder : Prop :=
  ∀ (i : Instr) (s t : State), MachineInv s → s.stInited = true → putsDirectlyOn i .out = false →
    getsDirectlyFrom i .out = false → exec i s = .next t →
    (t.transmitStream = s.transmitStream ∧ ((∃ v, i = .stOut v) ∨ i = .fpPutStep → t.out.used = s.out.used)) ∨
      ∃ v, t.transmitStream = s.transmitStream ++ [v] ∧ t.out.used = s.out.used + 1 ∧
        (i = .stOut v ∨ i = .fpPutStep ∧ s.putBuf.bytes[s.putIdx]? = some v)

/-- R26, R33, R48: no step changes the parameters, undoes an initialisation, or clears the receive enable, which is set from
`ST_INIT` on. -/
def Obligations.ParametersAndLifecyclePersist : Prop :=
  ∀ s t : State, step s = .next t →
    t.cfg = s.cfg ∧ (s.stInited = true → t.stInited = true) ∧ (s.fpInited = true → t.fpInited = true) ∧
      (s.rxIe = true → t.rxIe = true) ∧ (ReceiveEnabledInv s → ReceiveEnabledInv t)

/-- R230, R231: full, empty and a checksum mismatch never surface: from a good state the one fault there is is the `LineOverrun` of a
`LINE_RX` that finds `rx_ready` set. -/
def Obligations.GoodStatesFaultOnlyByLineOverrun : Prop :=
  ∀ (i : Instr) (s : State) (f : Fault), MachineInv s → exec i s = .fault f →
    ∃ a, i = .lineRx a ∧ f = .lineOverrun a ∧ s.rxReady = true

/-- R286: a state is quiescent exactly when every step of the block's own agents, and `LINE_TX`, holds and changes nothing or is refused
(R273), the framing receiver's `FP_STEP` counting only inside an `FP_GET`. From `ST_INIT` on, when `in` is not full, this amounts to the
list of the rule, in states of the reference design (the invariants of R25 and R163); its items on `put_idx` and `FP_GET` count from `FP_INIT`
on. Two readings are the model's own: that `LINE_TX` counts (log 21), and what is quiescent before an initialisation (log 25). -/
def Obligations.QuiescentAgentsHold : Prop :=
  ∀ (s : State) (g : Bool),
    (s.quiescent g = true ↔
      (∀ i ∈ [Instr.rxIsr, .rxWorker, .txIsr, .txWorker, .fpPutStep, .lineTx],
        exec i s = .next { s with result := .held } ∨ ∃ r, exec i s = .refused r) ∧
        (g = true → exec .fpStep s = .next { s with result := .held } ∨ ∃ r, exec .fpStep s = .refused r)) ∧
    (s.quiescent g = true → g = true →
      exec .fpGet s = .next { s with result := .held } ∨ ∃ r, exec .fpGet s = .refused r) ∧
    (s.stInited = true → MachineInv s → TransmitInv s → s.inb.used < s.cfg.n →
      (s.quiescent g = true ↔
        s.irqRx = false ∧ s.irqTx = false ∧ s.rxSig = 0 ∧ s.txSig = 0 ∧ s.txReady = true ∧
          (s.fpInited = true → s.putIdx = 5 ∧ ¬(g = true ∧ 0 < s.inb.used))))

/-- R35: the register view: bits 0 and 1 of `ST_CTRL` are `rx_ie`, `tx_ie` and of `ST_STAT` `rx_ready`, `tx_ready`; bits 7:2 of both read as 0.
The clause on a write of `ST_CTRL` is the model's own: no operation of R97 writes a register by number, and `writeStCtrl` reads "writes
ignored" as said of bits 7:2 (log 23). -/
def Obligations.RegisterView : Prop :=
  ∀ (s : State) (b : Byte),
    (s.stCtrl.getLsbD 0 = s.rxIe ∧ s.stCtrl.getLsbD 1 = s.txIe ∧ s.stCtrl >>> 2 = 0#8) ∧
    (s.stStat.getLsbD 0 = s.rxReady ∧ s.stStat.getLsbD 1 = s.txReady ∧ s.stStat >>> 2 = 0#8) ∧
    ((s.writeStCtrl b).stCtrl = b &&& 0x03#8) ∧
    (s.register 0 = some s.stCtrl ∧ s.register 1 = some s.stStat ∧ s.register 2 = some s.rxd ∧ s.register 3 = some s.txd)
end

