-- ==== Sys2Proof/Laws/Encoding.lean ====
section
/-!
SUPPORT. The bytes of a packed 40-bit word, and a word from its bytes (30_encoding.md R90, R96).
-/
namespace Sys2Proof

theorem Word40.getLsbD_byte (d : Word40) (k j : Nat) (hj : j < 8) : (d.byte k).getLsbD j = d.getLsbD (32 - 8 * k + j) := by
  simp [Word40.byte, hj]

theorem Word40.getLsbD_pack (op a b c e : Byte) (j : Nat) :
    (Word40.pack op a b c e).getLsbD j =
      if j < 8 then e.getLsbD j else if j < 16 then c.getLsbD (j - 8) else if j < 24 then b.getLsbD (j - 16)
      else if j < 32 then a.getLsbD (j - 24) else op.getLsbD (j - 32) := by
  simp only [Word40.pack, BitVec.getLsbD_append]
  split_ifs <;> first | rfl | omega

@[simp] theorem Word40.byte_pack_zero (op a b c e : Byte) : (Word40.pack op a b c e).byte 0 = op := by
  ext j hj
  rw [← BitVec.getLsbD_eq_getElem, getLsbD_byte _ _ _ hj, getLsbD_pack]
  split_ifs <;> first | omega | (rw [← BitVec.getLsbD_eq_getElem]; congr 1; omega)

@[simp] theorem Word40.byte_pack_one (op a b c e : Byte) : (Word40.pack op a b c e).byte 1 = a := by
  ext j hj
  rw [← BitVec.getLsbD_eq_getElem, getLsbD_byte _ _ _ hj, getLsbD_pack]
  split_ifs <;> first | omega | (rw [← BitVec.getLsbD_eq_getElem]; congr 1; omega)

@[simp] theorem Word40.byte_pack_two (op a b c e : Byte) : (Word40.pack op a b c e).byte 2 = b := by
  ext j hj
  rw [← BitVec.getLsbD_eq_getElem, getLsbD_byte _ _ _ hj, getLsbD_pack]
  split_ifs <;> first | omega | (rw [← BitVec.getLsbD_eq_getElem]; congr 1; omega)

@[simp] theorem Word40.byte_pack_three (op a b c e : Byte) : (Word40.pack op a b c e).byte 3 = c := by
  ext j hj
  rw [← BitVec.getLsbD_eq_getElem, getLsbD_byte _ _ _ hj, getLsbD_pack]
  split_ifs <;> first | omega | (rw [← BitVec.getLsbD_eq_getElem]; congr 1; omega)

@[simp] theorem Word40.byte_pack_four (op a b c e : Byte) : (Word40.pack op a b c e).byte 4 = e := by
  ext j hj
  rw [← BitVec.getLsbD_eq_getElem, getLsbD_byte _ _ _ hj, getLsbD_pack]
  split_ifs <;> first | omega | (rw [← BitVec.getLsbD_eq_getElem]; congr 1; omega)

/-- A 40-bit word is the word of its five bytes. -/
theorem Word40.pack_byte (d : Word40) : Word40.pack (d.byte 0) (d.byte 1) (d.byte 2) (d.byte 3) (d.byte 4) = d := by
  ext j hj
  rw [← BitVec.getLsbD_eq_getElem, getLsbD_pack]
  split_ifs <;> (rw [getLsbD_byte _ _ _ (by omega), ← BitVec.getLsbD_eq_getElem]; congr 1; omega)

end Sys2Proof
end

