-- ==== Sys2Proof/Laws/Memory.lean ====
section
/-!
SUPPORT. The laws of a backing store (20_memory.md R62): a read after a write, the canonical form kept by every memory operation, and
what the primitives answer.
-/
namespace Sys2Proof
namespace Machine

@[simp] theorem memGet_memSet_self (m : Memory) (i : Nat) (v : Byte) : memGet (memSet m i v) i = some v := by
  induction m with
  | nil => simp [memSet, memGet]
  | cons x m ih =>
    obtain ⟨j, b⟩ := x
    simp only [memSet]
    split
    · simp [memGet]
    · split
      · simp [memGet]
      · simp [memGet, *]

theorem memGet_memSet_of_ne (m : Memory) {i j : Nat} (v : Byte) (hij : j ≠ i) :
    memGet (memSet m i v) j = memGet m j := by
  induction m with
  | nil => simp [memSet, memGet, hij.symm]
  | cons x m ih =>
    obtain ⟨k, b⟩ := x
    simp only [memSet]
    split
    · simp [memGet, hij.symm]
    · split
      · rename_i hk
        subst hk
        simp [memGet, hij.symm]
      · simp only [memGet, ih]

theorem mem_memSet {m : Memory} {i : Nat} {v : Byte} {x : Host.Cell} (hx : x ∈ memSet m i v) : x = (i, v) ∨ x ∈ m := by
  induction m with
  | nil => exact .inl (by simpa [memSet] using hx)
  | cons y m ih =>
    obtain ⟨k, b⟩ := y
    simp only [memSet] at hx
    split at hx
    · simpa using hx
    · split at hx
      · rcases List.mem_cons.1 hx with h | h
        · exact .inl h
        · exact .inr (List.mem_cons_of_mem _ h)
      · rcases List.mem_cons.1 hx with h | h
        · exact .inr (h ▸ List.mem_cons_self)
        · exact (ih h).imp id (List.mem_cons_of_mem _)

/-- A write keeps the canonical form. -/
theorem memSet_wf {m : Memory} (h : Memory.wf m) (i : Nat) (v : Byte) : Memory.wf (memSet m i v) := by
  induction m with
  | nil => simp [memSet, Memory.wf]
  | cons y m ih =>
    obtain ⟨k, b⟩ := y
    obtain ⟨h1, h2⟩ := List.pairwise_cons.1 h
    simp only [memSet]
    split
    · rename_i hik
      refine List.pairwise_cons.2 ⟨fun x hx => ?_, h⟩
      rcases List.mem_cons.1 hx with rfl | hx
      · exact hik
      · exact lt_trans hik (h1 x hx)
    · split
      · rename_i hki
        subst hki
        exact List.pairwise_cons.2 ⟨h1, h2⟩
      · refine List.pairwise_cons.2 ⟨fun x hx => ?_, ih h2⟩
        rcases mem_memSet hx with rfl | hx
        · show k < i
          omega
        · exact h1 x hx

/-- A write inside `n` slots keeps every listed slot inside them. -/
theorem memSet_bound {m : Memory} {n i : Nat} {v : Byte} (h : ∀ x ∈ m, x.1 < n) (hi : i < n) :
    ∀ x ∈ memSet m i v, x.1 < n := fun x hx => by
  rcases mem_memSet hx with rfl | hx
  · exact hi
  · exact h x hx

/-- `MemRead` answers the byte of a slot in range that holds one, and nothing else. -/
theorem memRead_ok {n : Nat} {h : Chan} {m : Memory} {i : Nat} {v : Byte} :
    memRead n h m i = .ok v ↔ i < n ∧ memGet m i = some v := by
  unfold memRead
  split
  · split <;> simp_all
  · simp_all

/-- `MemWrite` answers the written memory when the slot is in range, and nothing else. -/
theorem memWrite_ok {n : Nat} {h : Chan} {m m' : Memory} {i : Nat} {v : Byte} :
    memWrite n h m i v = .ok m' ↔ i < n ∧ m' = memSet m i v := by
  unfold memWrite
  split <;> simp_all [eq_comm]

/-- Every memory operation keeps the canonical form: `MemWrite` is the one that changes a memory. -/
theorem memWrite_wf {n : Nat} {h : Chan} {m m' : Memory} {i : Nat} {v : Byte} (hw : Memory.wf m)
    (hm : memWrite n h m i v = .ok m') : Memory.wf m' := by
  obtain ⟨-, rfl⟩ := memWrite_ok.1 hm
  exact memSet_wf hw i v

/-- The backing stores at power-on are canonical. -/
theorem reset_memory_wf : Memory.wf State.reset.inb.mem ∧ Memory.wf State.reset.out.mem :=
  ⟨List.Pairwise.nil, List.Pairwise.nil⟩

end Machine
end Sys2Proof
end

