-- ==== Sys2Proof/Laws/State.lean ====
section
/-!
SUPPORT. The fields of the state after each named update, one lemma per field, so that no proof unfolds an update.
-/
namespace Sys2Proof
namespace Machine

/-! ### `setChan` -/

@[simp] theorem State.setChan_inb_eq (s : State) (c : Channel) : s.setChan .inb c = { s with inb := c } := rfl
@[simp] theorem State.setChan_out_eq (s : State) (c : Channel) : s.setChan .out c = { s with out := c } := rfl
@[simp] theorem State.chan_inb (s : State) : s.chan .inb = s.inb := rfl
@[simp] theorem State.chan_out (s : State) : s.chan .out = s.out := rfl
@[simp] theorem State.chan_setChan (s : State) (h : Chan) (c : Channel) : (s.setChan h c).chan h = c := by cases h <;> rfl
@[simp] theorem State.setChan_cfg (s : State) (h : Chan) (c : Channel) : (s.setChan h c).cfg = s.cfg := by cases h <;> rfl
@[simp] theorem State.setChan_rxd (s : State) (h : Chan) (c : Channel) : (s.setChan h c).rxd = s.rxd := by cases h <;> rfl
@[simp] theorem State.setChan_txd (s : State) (h : Chan) (c : Channel) : (s.setChan h c).txd = s.txd := by cases h <;> rfl
@[simp] theorem State.setChan_rxReady (s : State) (h : Chan) (c : Channel) : (s.setChan h c).rxReady = s.rxReady := by cases h <;> rfl
@[simp] theorem State.setChan_txReady (s : State) (h : Chan) (c : Channel) : (s.setChan h c).txReady = s.txReady := by cases h <;> rfl
@[simp] theorem State.setChan_rxIe (s : State) (h : Chan) (c : Channel) : (s.setChan h c).rxIe = s.rxIe := by cases h <;> rfl
@[simp] theorem State.setChan_txIe (s : State) (h : Chan) (c : Channel) : (s.setChan h c).txIe = s.txIe := by cases h <;> rfl
@[simp] theorem State.setChan_rxSlot (s : State) (h : Chan) (c : Channel) : (s.setChan h c).rxSlot = s.rxSlot := by cases h <;> rfl
@[simp] theorem State.setChan_rxSig (s : State) (h : Chan) (c : Channel) : (s.setChan h c).rxSig = s.rxSig := by cases h <;> rfl
@[simp] theorem State.setChan_txSig (s : State) (h : Chan) (c : Channel) : (s.setChan h c).txSig = s.txSig := by cases h <;> rfl
@[simp] theorem State.setChan_w (s : State) (h : Chan) (c : Channel) : (s.setChan h c).w = s.w := by cases h <;> rfl
@[simp] theorem State.setChan_wcount (s : State) (h : Chan) (c : Channel) : (s.setChan h c).wcount = s.wcount := by cases h <;> rfl
@[simp] theorem State.setChan_pkt (s : State) (h : Chan) (c : Channel) : (s.setChan h c).pkt = s.pkt := by cases h <;> rfl
@[simp] theorem State.setChan_putBuf (s : State) (h : Chan) (c : Channel) : (s.setChan h c).putBuf = s.putBuf := by cases h <;> rfl
@[simp] theorem State.setChan_putIdx (s : State) (h : Chan) (c : Channel) : (s.setChan h c).putIdx = s.putIdx := by cases h <;> rfl
@[simp] theorem State.setChan_stInited (s : State) (h : Chan) (c : Channel) : (s.setChan h c).stInited = s.stInited := by cases h <;> rfl
@[simp] theorem State.setChan_fpInited (s : State) (h : Chan) (c : Channel) : (s.setChan h c).fpInited = s.fpInited := by cases h <;> rfl
@[simp] theorem State.setChan_lineIn (s : State) (h : Chan) (c : Channel) : (s.setChan h c).lineIn = s.lineIn := by cases h <;> rfl
@[simp] theorem State.setChan_lineOut (s : State) (h : Chan) (c : Channel) : (s.setChan h c).lineOut = s.lineOut := by cases h <;> rfl
@[simp] theorem State.setChan_pktOut (s : State) (h : Chan) (c : Channel) : (s.setChan h c).pktOut = s.pktOut := by cases h <;> rfl
@[simp] theorem State.setChan_schedule (s : State) (h : Chan) (c : Channel) : (s.setChan h c).schedule = s.schedule := by cases h <;> rfl
@[simp] theorem State.setChan_result (s : State) (h : Chan) (c : Channel) : (s.setChan h c).result = s.result := by cases h <;> rfl

/-! ### `writeTxd` -/

@[simp] theorem State.writeTxd_cfg (s : State) (v : Byte) : (s.writeTxd v).cfg = s.cfg := rfl
@[simp] theorem State.writeTxd_inb (s : State) (v : Byte) : (s.writeTxd v).inb = s.inb := rfl
@[simp] theorem State.writeTxd_out (s : State) (v : Byte) : (s.writeTxd v).out = s.out := rfl
@[simp] theorem State.writeTxd_rxd (s : State) (v : Byte) : (s.writeTxd v).rxd = s.rxd := rfl
@[simp] theorem State.writeTxd_txd (s : State) (v : Byte) : (s.writeTxd v).txd = v := rfl
@[simp] theorem State.writeTxd_rxReady (s : State) (v : Byte) : (s.writeTxd v).rxReady = s.rxReady := rfl
@[simp] theorem State.writeTxd_txReady (s : State) (v : Byte) : (s.writeTxd v).txReady = false := rfl
@[simp] theorem State.writeTxd_rxIe (s : State) (v : Byte) : (s.writeTxd v).rxIe = s.rxIe := rfl
@[simp] theorem State.writeTxd_txIe (s : State) (v : Byte) : (s.writeTxd v).txIe = s.txIe := rfl
@[simp] theorem State.writeTxd_rxSlot (s : State) (v : Byte) : (s.writeTxd v).rxSlot = s.rxSlot := rfl
@[simp] theorem State.writeTxd_rxSig (s : State) (v : Byte) : (s.writeTxd v).rxSig = s.rxSig := rfl
@[simp] theorem State.writeTxd_txSig (s : State) (v : Byte) : (s.writeTxd v).txSig = s.txSig := rfl
@[simp] theorem State.writeTxd_w (s : State) (v : Byte) : (s.writeTxd v).w = s.w := rfl
@[simp] theorem State.writeTxd_wcount (s : State) (v : Byte) : (s.writeTxd v).wcount = s.wcount := rfl
@[simp] theorem State.writeTxd_pkt (s : State) (v : Byte) : (s.writeTxd v).pkt = s.pkt := rfl
@[simp] theorem State.writeTxd_putBuf (s : State) (v : Byte) : (s.writeTxd v).putBuf = s.putBuf := rfl
@[simp] theorem State.writeTxd_putIdx (s : State) (v : Byte) : (s.writeTxd v).putIdx = s.putIdx := rfl
@[simp] theorem State.writeTxd_stInited (s : State) (v : Byte) : (s.writeTxd v).stInited = s.stInited := rfl
@[simp] theorem State.writeTxd_fpInited (s : State) (v : Byte) : (s.writeTxd v).fpInited = s.fpInited := rfl
@[simp] theorem State.writeTxd_lineIn (s : State) (v : Byte) : (s.writeTxd v).lineIn = s.lineIn := rfl
@[simp] theorem State.writeTxd_lineOut (s : State) (v : Byte) : (s.writeTxd v).lineOut = s.lineOut := rfl
@[simp] theorem State.writeTxd_pktOut (s : State) (v : Byte) : (s.writeTxd v).pktOut = s.pktOut := rfl
@[simp] theorem State.writeTxd_schedule (s : State) (v : Byte) : (s.writeTxd v).schedule = s.schedule := rfl
@[simp] theorem State.writeTxd_result (s : State) (v : Byte) : (s.writeTxd v).result = s.result := rfl

/-! ### `postRx` -/

@[simp] theorem State.postRx_cfg (s : State) : (s.postRx).cfg = s.cfg := rfl
@[simp] theorem State.postRx_inb (s : State) : (s.postRx).inb = s.inb := rfl
@[simp] theorem State.postRx_out (s : State) : (s.postRx).out = s.out := rfl
@[simp] theorem State.postRx_rxd (s : State) : (s.postRx).rxd = s.rxd := rfl
@[simp] theorem State.postRx_txd (s : State) : (s.postRx).txd = s.txd := rfl
@[simp] theorem State.postRx_rxReady (s : State) : (s.postRx).rxReady = s.rxReady := rfl
@[simp] theorem State.postRx_txReady (s : State) : (s.postRx).txReady = s.txReady := rfl
@[simp] theorem State.postRx_rxIe (s : State) : (s.postRx).rxIe = s.rxIe := rfl
@[simp] theorem State.postRx_txIe (s : State) : (s.postRx).txIe = s.txIe := rfl
@[simp] theorem State.postRx_rxSlot (s : State) : (s.postRx).rxSlot = s.rxSlot := rfl
@[simp] theorem State.postRx_rxSig (s : State) : (s.postRx).rxSig = s.rxSig + 1 := rfl
@[simp] theorem State.postRx_txSig (s : State) : (s.postRx).txSig = s.txSig := rfl
@[simp] theorem State.postRx_w (s : State) : (s.postRx).w = s.w := rfl
@[simp] theorem State.postRx_wcount (s : State) : (s.postRx).wcount = s.wcount := rfl
@[simp] theorem State.postRx_pkt (s : State) : (s.postRx).pkt = s.pkt := rfl
@[simp] theorem State.postRx_putBuf (s : State) : (s.postRx).putBuf = s.putBuf := rfl
@[simp] theorem State.postRx_putIdx (s : State) : (s.postRx).putIdx = s.putIdx := rfl
@[simp] theorem State.postRx_stInited (s : State) : (s.postRx).stInited = s.stInited := rfl
@[simp] theorem State.postRx_fpInited (s : State) : (s.postRx).fpInited = s.fpInited := rfl
@[simp] theorem State.postRx_lineIn (s : State) : (s.postRx).lineIn = s.lineIn := rfl
@[simp] theorem State.postRx_lineOut (s : State) : (s.postRx).lineOut = s.lineOut := rfl
@[simp] theorem State.postRx_pktOut (s : State) : (s.postRx).pktOut = s.pktOut := rfl
@[simp] theorem State.postRx_schedule (s : State) : (s.postRx).schedule = s.schedule := rfl
@[simp] theorem State.postRx_result (s : State) : (s.postRx).result = s.result := rfl

/-! ### `waitRx` -/

@[simp] theorem State.waitRx_cfg (s : State) : (s.waitRx).cfg = s.cfg := rfl
@[simp] theorem State.waitRx_inb (s : State) : (s.waitRx).inb = s.inb := rfl
@[simp] theorem State.waitRx_out (s : State) : (s.waitRx).out = s.out := rfl
@[simp] theorem State.waitRx_rxd (s : State) : (s.waitRx).rxd = s.rxd := rfl
@[simp] theorem State.waitRx_txd (s : State) : (s.waitRx).txd = s.txd := rfl
@[simp] theorem State.waitRx_rxReady (s : State) : (s.waitRx).rxReady = s.rxReady := rfl
@[simp] theorem State.waitRx_txReady (s : State) : (s.waitRx).txReady = s.txReady := rfl
@[simp] theorem State.waitRx_rxIe (s : State) : (s.waitRx).rxIe = s.rxIe := rfl
@[simp] theorem State.waitRx_txIe (s : State) : (s.waitRx).txIe = s.txIe := rfl
@[simp] theorem State.waitRx_rxSlot (s : State) : (s.waitRx).rxSlot = s.rxSlot := rfl
@[simp] theorem State.waitRx_rxSig (s : State) : (s.waitRx).rxSig = s.rxSig - 1 := rfl
@[simp] theorem State.waitRx_txSig (s : State) : (s.waitRx).txSig = s.txSig := rfl
@[simp] theorem State.waitRx_w (s : State) : (s.waitRx).w = s.w := rfl
@[simp] theorem State.waitRx_wcount (s : State) : (s.waitRx).wcount = s.wcount := rfl
@[simp] theorem State.waitRx_pkt (s : State) : (s.waitRx).pkt = s.pkt := rfl
@[simp] theorem State.waitRx_putBuf (s : State) : (s.waitRx).putBuf = s.putBuf := rfl
@[simp] theorem State.waitRx_putIdx (s : State) : (s.waitRx).putIdx = s.putIdx := rfl
@[simp] theorem State.waitRx_stInited (s : State) : (s.waitRx).stInited = s.stInited := rfl
@[simp] theorem State.waitRx_fpInited (s : State) : (s.waitRx).fpInited = s.fpInited := rfl
@[simp] theorem State.waitRx_lineIn (s : State) : (s.waitRx).lineIn = s.lineIn := rfl
@[simp] theorem State.waitRx_lineOut (s : State) : (s.waitRx).lineOut = s.lineOut := rfl
@[simp] theorem State.waitRx_pktOut (s : State) : (s.waitRx).pktOut = s.pktOut := rfl
@[simp] theorem State.waitRx_schedule (s : State) : (s.waitRx).schedule = s.schedule := rfl
@[simp] theorem State.waitRx_result (s : State) : (s.waitRx).result = s.result := rfl

/-! ### `postTx` -/

@[simp] theorem State.postTx_cfg (s : State) : (s.postTx).cfg = s.cfg := rfl
@[simp] theorem State.postTx_inb (s : State) : (s.postTx).inb = s.inb := rfl
@[simp] theorem State.postTx_out (s : State) : (s.postTx).out = s.out := rfl
@[simp] theorem State.postTx_rxd (s : State) : (s.postTx).rxd = s.rxd := rfl
@[simp] theorem State.postTx_txd (s : State) : (s.postTx).txd = s.txd := rfl
@[simp] theorem State.postTx_rxReady (s : State) : (s.postTx).rxReady = s.rxReady := rfl
@[simp] theorem State.postTx_txReady (s : State) : (s.postTx).txReady = s.txReady := rfl
@[simp] theorem State.postTx_rxIe (s : State) : (s.postTx).rxIe = s.rxIe := rfl
@[simp] theorem State.postTx_txIe (s : State) : (s.postTx).txIe = s.txIe := rfl
@[simp] theorem State.postTx_rxSlot (s : State) : (s.postTx).rxSlot = s.rxSlot := rfl
@[simp] theorem State.postTx_rxSig (s : State) : (s.postTx).rxSig = s.rxSig := rfl
@[simp] theorem State.postTx_txSig (s : State) : (s.postTx).txSig = s.txSig + 1 := rfl
@[simp] theorem State.postTx_w (s : State) : (s.postTx).w = s.w := rfl
@[simp] theorem State.postTx_wcount (s : State) : (s.postTx).wcount = s.wcount := rfl
@[simp] theorem State.postTx_pkt (s : State) : (s.postTx).pkt = s.pkt := rfl
@[simp] theorem State.postTx_putBuf (s : State) : (s.postTx).putBuf = s.putBuf := rfl
@[simp] theorem State.postTx_putIdx (s : State) : (s.postTx).putIdx = s.putIdx := rfl
@[simp] theorem State.postTx_stInited (s : State) : (s.postTx).stInited = s.stInited := rfl
@[simp] theorem State.postTx_fpInited (s : State) : (s.postTx).fpInited = s.fpInited := rfl
@[simp] theorem State.postTx_lineIn (s : State) : (s.postTx).lineIn = s.lineIn := rfl
@[simp] theorem State.postTx_lineOut (s : State) : (s.postTx).lineOut = s.lineOut := rfl
@[simp] theorem State.postTx_pktOut (s : State) : (s.postTx).pktOut = s.pktOut := rfl
@[simp] theorem State.postTx_schedule (s : State) : (s.postTx).schedule = s.schedule := rfl
@[simp] theorem State.postTx_result (s : State) : (s.postTx).result = s.result := rfl

/-! ### `waitTx` -/

@[simp] theorem State.waitTx_cfg (s : State) : (s.waitTx).cfg = s.cfg := rfl
@[simp] theorem State.waitTx_inb (s : State) : (s.waitTx).inb = s.inb := rfl
@[simp] theorem State.waitTx_out (s : State) : (s.waitTx).out = s.out := rfl
@[simp] theorem State.waitTx_rxd (s : State) : (s.waitTx).rxd = s.rxd := rfl
@[simp] theorem State.waitTx_txd (s : State) : (s.waitTx).txd = s.txd := rfl
@[simp] theorem State.waitTx_rxReady (s : State) : (s.waitTx).rxReady = s.rxReady := rfl
@[simp] theorem State.waitTx_txReady (s : State) : (s.waitTx).txReady = s.txReady := rfl
@[simp] theorem State.waitTx_rxIe (s : State) : (s.waitTx).rxIe = s.rxIe := rfl
@[simp] theorem State.waitTx_txIe (s : State) : (s.waitTx).txIe = s.txIe := rfl
@[simp] theorem State.waitTx_rxSlot (s : State) : (s.waitTx).rxSlot = s.rxSlot := rfl
@[simp] theorem State.waitTx_rxSig (s : State) : (s.waitTx).rxSig = s.rxSig := rfl
@[simp] theorem State.waitTx_txSig (s : State) : (s.waitTx).txSig = s.txSig - 1 := rfl
@[simp] theorem State.waitTx_w (s : State) : (s.waitTx).w = s.w := rfl
@[simp] theorem State.waitTx_wcount (s : State) : (s.waitTx).wcount = s.wcount := rfl
@[simp] theorem State.waitTx_pkt (s : State) : (s.waitTx).pkt = s.pkt := rfl
@[simp] theorem State.waitTx_putBuf (s : State) : (s.waitTx).putBuf = s.putBuf := rfl
@[simp] theorem State.waitTx_putIdx (s : State) : (s.waitTx).putIdx = s.putIdx := rfl
@[simp] theorem State.waitTx_stInited (s : State) : (s.waitTx).stInited = s.stInited := rfl
@[simp] theorem State.waitTx_fpInited (s : State) : (s.waitTx).fpInited = s.fpInited := rfl
@[simp] theorem State.waitTx_lineIn (s : State) : (s.waitTx).lineIn = s.lineIn := rfl
@[simp] theorem State.waitTx_lineOut (s : State) : (s.waitTx).lineOut = s.lineOut := rfl
@[simp] theorem State.waitTx_pktOut (s : State) : (s.waitTx).pktOut = s.pktOut := rfl
@[simp] theorem State.waitTx_schedule (s : State) : (s.waitTx).schedule = s.schedule := rfl
@[simp] theorem State.waitTx_result (s : State) : (s.waitTx).result = s.result := rfl

/-! ### `captureByte` -/

@[simp] theorem State.captureByte_cfg (s : State) : (s.captureByte).cfg = s.cfg := rfl
@[simp] theorem State.captureByte_inb (s : State) : (s.captureByte).inb = s.inb := rfl
@[simp] theorem State.captureByte_out (s : State) : (s.captureByte).out = s.out := rfl
@[simp] theorem State.captureByte_rxd (s : State) : (s.captureByte).rxd = s.rxd := rfl
@[simp] theorem State.captureByte_txd (s : State) : (s.captureByte).txd = s.txd := rfl
@[simp] theorem State.captureByte_rxReady (s : State) : (s.captureByte).rxReady = false := rfl
@[simp] theorem State.captureByte_txReady (s : State) : (s.captureByte).txReady = s.txReady := rfl
@[simp] theorem State.captureByte_rxIe (s : State) : (s.captureByte).rxIe = s.rxIe := rfl
@[simp] theorem State.captureByte_txIe (s : State) : (s.captureByte).txIe = s.txIe := rfl
@[simp] theorem State.captureByte_rxSlot (s : State) : (s.captureByte).rxSlot = s.rxd := rfl
@[simp] theorem State.captureByte_rxSig (s : State) : (s.captureByte).rxSig = s.rxSig + 1 := rfl
@[simp] theorem State.captureByte_txSig (s : State) : (s.captureByte).txSig = s.txSig := rfl
@[simp] theorem State.captureByte_w (s : State) : (s.captureByte).w = s.w := rfl
@[simp] theorem State.captureByte_wcount (s : State) : (s.captureByte).wcount = s.wcount := rfl
@[simp] theorem State.captureByte_pkt (s : State) : (s.captureByte).pkt = s.pkt := rfl
@[simp] theorem State.captureByte_putBuf (s : State) : (s.captureByte).putBuf = s.putBuf := rfl
@[simp] theorem State.captureByte_putIdx (s : State) : (s.captureByte).putIdx = s.putIdx := rfl
@[simp] theorem State.captureByte_stInited (s : State) : (s.captureByte).stInited = s.stInited := rfl
@[simp] theorem State.captureByte_fpInited (s : State) : (s.captureByte).fpInited = s.fpInited := rfl
@[simp] theorem State.captureByte_lineIn (s : State) : (s.captureByte).lineIn = s.lineIn := rfl
@[simp] theorem State.captureByte_lineOut (s : State) : (s.captureByte).lineOut = s.lineOut := rfl
@[simp] theorem State.captureByte_pktOut (s : State) : (s.captureByte).pktOut = s.pktOut := rfl
@[simp] theorem State.captureByte_schedule (s : State) : (s.captureByte).schedule = s.schedule := rfl
@[simp] theorem State.captureByte_result (s : State) : (s.captureByte).result = s.result := rfl

/-! ### `place` -/

@[simp] theorem State.place_cfg (s : State) (d : Word40) : (s.place d).cfg = s.cfg := rfl
@[simp] theorem State.place_inb (s : State) (d : Word40) : (s.place d).inb = s.inb := rfl
@[simp] theorem State.place_out (s : State) (d : Word40) : (s.place d).out = s.out := rfl
@[simp] theorem State.place_rxd (s : State) (d : Word40) : (s.place d).rxd = s.rxd := rfl
@[simp] theorem State.place_txd (s : State) (d : Word40) : (s.place d).txd = s.txd := rfl
@[simp] theorem State.place_rxReady (s : State) (d : Word40) : (s.place d).rxReady = s.rxReady := rfl
@[simp] theorem State.place_txReady (s : State) (d : Word40) : (s.place d).txReady = s.txReady := rfl
@[simp] theorem State.place_rxIe (s : State) (d : Word40) : (s.place d).rxIe = s.rxIe := rfl
@[simp] theorem State.place_txIe (s : State) (d : Word40) : (s.place d).txIe = s.txIe := rfl
@[simp] theorem State.place_rxSlot (s : State) (d : Word40) : (s.place d).rxSlot = s.rxSlot := rfl
@[simp] theorem State.place_rxSig (s : State) (d : Word40) : (s.place d).rxSig = s.rxSig := rfl
@[simp] theorem State.place_txSig (s : State) (d : Word40) : (s.place d).txSig = s.txSig := rfl
@[simp] theorem State.place_w (s : State) (d : Word40) : (s.place d).w = s.w := rfl
@[simp] theorem State.place_wcount (s : State) (d : Word40) : (s.place d).wcount = s.wcount := rfl
@[simp] theorem State.place_pkt (s : State) (d : Word40) : (s.place d).pkt = s.pkt := rfl
@[simp] theorem State.place_putBuf (s : State) (d : Word40) : (s.place d).putBuf = s.putBuf := rfl
@[simp] theorem State.place_putIdx (s : State) (d : Word40) : (s.place d).putIdx = s.putIdx := rfl
@[simp] theorem State.place_stInited (s : State) (d : Word40) : (s.place d).stInited = s.stInited := rfl
@[simp] theorem State.place_fpInited (s : State) (d : Word40) : (s.place d).fpInited = s.fpInited := rfl
@[simp] theorem State.place_lineIn (s : State) (d : Word40) : (s.place d).lineIn = s.lineIn := rfl
@[simp] theorem State.place_lineOut (s : State) (d : Word40) : (s.place d).lineOut = s.lineOut := rfl
@[simp] theorem State.place_pktOut (s : State) (d : Word40) : (s.place d).pktOut = s.pktOut := rfl
@[simp] theorem State.place_schedule (s : State) (d : Word40) : (s.place d).schedule = d :: s.schedule := rfl
@[simp] theorem State.place_result (s : State) (d : Word40) : (s.place d).result = s.result := rfl

/-! ### `takeRxd` and the created channel -/

@[simp] theorem State.takeRxd_fst (s : State) : s.takeRxd.1 = s.rxd := rfl
@[simp] theorem State.takeRxd_snd (s : State) : s.takeRxd.2 = { s with rxReady := false } := rfl
@[simp] theorem Channel.created_mem (c : Channel) : c.created.mem = c.mem := rfl
@[simp] theorem Channel.created_start (c : Channel) : c.created.start = 0 := rfl
@[simp] theorem Channel.created_endIdx (c : Channel) : c.created.endIdx = 0 := rfl
@[simp] theorem Channel.created_used (c : Channel) : c.created.used = 0 := rfl

end Machine
end Sys2Proof
end

