-- ==== Sys2Proof/Laws/Ops.lean ====
section
/-!
SUPPORT. For each shared operation, everything it can do, stated once: provers cite these and do not unfold the operation.
-/
namespace Sys2Proof
namespace Machine

/-! ### Guards (10_state.md R28, 60_exceptions.md R234) -/

@[simp] theorem hasRoom_iff {s : State} {h : Chan} : s.hasRoom h = true ↔ (s.chan h).used < s.cfg.n := by
  simp [State.hasRoom]

@[simp] theorem hasRoom_false_iff {s : State} {h : Chan} : s.hasRoom h = false ↔ s.cfg.n ≤ (s.chan h).used := by
  simp [State.hasRoom]

@[simp] theorem hasData_iff {s : State} {h : Chan} : s.hasData h = true ↔ 0 < (s.chan h).used := by
  simp [State.hasData]

@[simp] theorem hasData_false_iff {s : State} {h : Chan} : s.hasData h = false ↔ (s.chan h).used = 0 := by
  simp [State.hasData]

theorem irqRx_iff {s : State} : s.irqRx = true ↔ s.rxReady = true ∧ s.rxIe = true ∧ s.rxSig = 0 := by
  simp [State.irqRx, and_assoc]

theorem irqTx_iff {s : State} : s.irqTx = true ↔ s.txReady = true ∧ s.txIe = true ∧ s.txSig = 0 := by
  simp [State.irqTx, and_assoc]

@[simp] theorem canDeliver_iff {s : State} : s.canDeliver = true ↔ s.rxSig = 1 ∧ s.inb.used < s.cfg.n := by
  simp [State.canDeliver]

@[simp] theorem canDeliver_false_iff {s : State} : s.canDeliver = false ↔ ¬(s.rxSig = 1 ∧ s.inb.used < s.cfg.n) := by
  rw [← canDeliver_iff, Bool.not_eq_true]

@[simp] theorem canServe_iff {s : State} : s.canServe = true ↔ s.txSig = 1 := by simp [State.canServe]

@[simp] theorem canServe_false_iff {s : State} : s.canServe = false ↔ s.txSig ≠ 1 := by simp [State.canServe]

@[simp] theorem canPush_iff {s : State} : s.canPush = true ↔ s.putIdx < 5 ∧ s.out.used < s.cfg.n := by
  simp [State.canPush]

@[simp] theorem canPush_false_iff {s : State} : s.canPush = false ↔ ¬(s.putIdx < 5 ∧ s.out.used < s.cfg.n) := by
  rw [← canPush_iff, Bool.not_eq_true]

/-! ### Put and get on a channel (40_bytechannel.md R120, R121) -/

/-- The channel after a put of `a`. -/
def Channel.afterPut (n : Nat) (c : Channel) (a : Byte) : Channel :=
  { c with mem := memSet c.mem c.endIdx a, endIdx := (c.endIdx + 1) % n, used := c.used + 1 }

/-- The channel after a get. -/
def Channel.afterGet (n : Nat) (c : Channel) : Channel :=
  { c with start := (c.start + 1) % n, used := c.used - 1 }

theorem putByte_ok {n : Nat} {h : Chan} {c d : Channel} {a : Byte} :
    c.putByte n h a = .ok d ↔ c.endIdx < n ∧ d = c.afterPut n a := by
  unfold Channel.putByte memWrite
  split <;> simp_all [Except.map, Channel.afterPut, nextIndex, eq_comm]

theorem getByte_ok {n : Nat} {h : Chan} {c d : Channel} {v : Byte} :
    c.getByte n h = .ok (v, d) ↔ c.start < n ∧ memGet c.mem c.start = some v ∧ d = c.afterGet n := by
  unfold Channel.getByte
  rw [← and_assoc, ← memRead_ok (h := h)]
  cases memRead n h c.mem c.start <;> simp [Except.map, Channel.afterGet, nextIndex, eq_comm]

theorem putOn_ok {s t : State} {h : Chan} {a : Byte} :
    s.putOn h a = .ok t ↔ (s.chan h).endIdx < s.cfg.n ∧ t = s.setChan h ((s.chan h).afterPut s.cfg.n a) := by
  unfold State.putOn
  cases hp : (s.chan h).putByte s.cfg.n h a with
  | error f =>
    have := (putByte_ok (n := s.cfg.n) (h := h) (c := s.chan h) (a := a) (d := (s.chan h).afterPut s.cfg.n a)).not.1
      (by simp [hp])
    simp_all [Except.map]
  | ok d =>
    obtain ⟨h1, rfl⟩ := putByte_ok.1 hp
    simp [Except.map, h1, eq_comm]

theorem getFrom_ok {s t : State} {h : Chan} {v : Byte} :
    s.getFrom h = .ok (v, t) ↔ (s.chan h).start < s.cfg.n ∧ memGet (s.chan h).mem (s.chan h).start = some v ∧
      t = s.setChan h ((s.chan h).afterGet s.cfg.n) := by
  unfold State.getFrom
  cases hp : (s.chan h).getByte s.cfg.n h with
  | error f =>
    have := fun v => (getByte_ok (n := s.cfg.n) (h := h) (c := s.chan h) (v := v) (d := (s.chan h).afterGet s.cfg.n)).not.1
      (by simp [hp])
    simp_all [Except.map]
  | ok r =>
    obtain ⟨u, d⟩ := r
    obtain ⟨h1, h2, rfl⟩ := getByte_ok.1 hp
    simp [Except.map, h1, h2, eq_comm]

/-- The body of `ST_OUT` (R155). -/
theorem submit_ok {s t : State} {a : Byte} :
    s.submit a = .ok t ↔
      s.out.endIdx < s.cfg.n ∧ t = { s with out := s.out.afterPut s.cfg.n a, txIe := true } := by
  unfold State.submit
  cases hp : s.putOn .out a with
  | error f =>
    have := (putOn_ok (s := s) (h := .out) (a := a) (t := s.setChan .out (s.out.afterPut s.cfg.n a))).not.1 (by simp [hp])
    simp_all [Except.map]
  | ok u =>
    obtain ⟨h1, rfl⟩ := putOn_ok.1 hp
    simp only [State.chan_out] at h1
    simp [Except.map, h1, eq_comm]

/-! ### The receive algorithm (42_framing.md R192 to R194) -/

/-- One iteration takes the byte at `start` and slides the window by it. -/
theorem receiveByte_ok {s t : State} {b : Bool} :
    s.receiveByte = .ok (b, t) ↔ s.inb.start < s.cfg.n ∧
      ∃ x, memGet s.inb.mem s.inb.start = some x ∧ State.slide { s with inb := s.inb.afterGet s.cfg.n } x = (b, t) := by
  unfold State.receiveByte
  cases hp : s.getFrom .inb with
  | error f =>
    have := fun v => (getFrom_ok (s := s) (h := .inb) (v := v) (t := s.setChan .inb (s.inb.afterGet s.cfg.n))).not.1
      (by simp [hp])
    simp_all [Except.map]
  | ok r =>
    obtain ⟨x, u⟩ := r
    obtain ⟨h1, h2, rfl⟩ := getFrom_ok.1 hp
    simp only [State.chan_inb] at h1 h2
    simp [Except.map, h1, h2]

/-- The slide writes the window, its count, and on success the current packet and its history. -/
theorem slide_cases (s : State) (x : Byte) :
    (min (s.wcount + 1) 5 = 5 ∧ (shiftIn s.w x).valid = true ∧
      s.slide x = (true, { s with w := shiftIn s.w x, wcount := 0, pkt := shiftIn s.w x,
                                  pktOut := s.pktOut ++ [shiftIn s.w x] })) ∨
    (¬(min (s.wcount + 1) 5 = 5 ∧ (shiftIn s.w x).valid = true) ∧
      s.slide x = (false, { s with w := shiftIn s.w x, wcount := min (s.wcount + 1) 5 })) := by
  by_cases hc : min (s.wcount + 1) 5 = 5 ∧ (shiftIn s.w x).valid = true
  · exact .inl ⟨hc.1, hc.2, by simp only [State.slide, if_pos hc]⟩
  · exact .inr ⟨hc, by simp only [State.slide, if_neg hc]⟩

/-- Induction for the receive loop: what one iteration keeps, the loop keeps. -/
theorem receiveLoop_induct {P : State → Prop} (hstep : ∀ s t b, P s → s.receiveByte = .ok (b, t) → P t) :
    ∀ (fuel : Nat) {s t : State} {b : Bool}, P s → receiveLoop fuel s = .ok (b, t) → P t
  | 0, s, t, b, hs, h => by
    simp only [receiveLoop, Except.ok.injEq, Prod.mk.injEq] at h
    exact h.2 ▸ hs
  | fuel + 1, s, t, b, hs, h => by
    simp only [receiveLoop] at h
    split at h
    · rename_i u hu
      simp only [Except.ok.injEq, Prod.mk.injEq] at h
      exact h.2 ▸ hstep _ _ _ hs hu
    · rename_i u hu
      exact receiveLoop_induct hstep fuel (hstep _ _ _ hs hu) h
    · cases h

/-- A fault of the loop is a fault of one iteration, in a state the iterations before it reach. -/
theorem receiveLoop_error {P : State → Prop} (hstep : ∀ s t b, P s → s.receiveByte = .ok (b, t) → P t) :
    ∀ (fuel : Nat) {s : State} {f : Fault}, P s → receiveLoop fuel s = .error f → ∃ u, P u ∧ u.receiveByte = .error f
  | 0, s, f, _, h => by simp [receiveLoop] at h
  | fuel + 1, s, f, hs, h => by
    simp only [receiveLoop] at h
    split at h
    · cases h
    · rename_i u hu
      exact receiveLoop_error hstep fuel (hstep _ _ _ hs hu) h
    · rename_i g hg
      cases h
      exact ⟨s, hs, hg⟩

/-! ### Outcomes -/

theorem done_next {s t : State} {r : Result} : s.done r = .next t ↔ t = { s with result := r } := by
  simp [State.done, eq_comm]

theorem hold_next {s t : State} : s.hold = .next t ↔ t = { s with result := .held } := done_next

theorem finish_next {x : Except Fault State} {r : Result} {t : State} :
    finish x r = .next t ↔ ∃ u, x = .ok u ∧ t = { u with result := r } := by
  cases x <;> simp [finish, done_next]

theorem finish_fault {x : Except Fault State} {r : Result} {f : Fault} : finish x r = .fault f ↔ x = .error f := by
  cases x <;> simp [finish, State.done]

theorem finishByte_next {x : Except Fault (Byte × State)} {r : Byte → Result} {t : State} :
    finishByte x r = .next t ↔ ∃ v u, x = .ok (v, u) ∧ t = { u with result := r v } := by
  rcases x with f | ⟨v, u⟩ <;> simp [finishByte, done_next]

theorem finishByte_fault {x : Except Fault (Byte × State)} {r : Byte → Result} {f : Fault} :
    finishByte x r = .fault f ↔ x = .error f := by
  rcases x with g | ⟨v, u⟩ <;> simp [finishByte, State.done]

theorem needSt_next {s t : State} {k : Out} : s.needSt k = .next t ↔ s.stInited = true ∧ k = .next t := by
  unfold State.needSt
  split <;> simp_all

theorem needFp_next {s t : State} {k : Out} : s.needFp k = .next t ↔ s.fpInited = true ∧ k = .next t := by
  unfold State.needFp
  split <;> simp_all

theorem needTry_next {s t : State} {k : Out} : s.needTry k = .next t ↔ s.cfg.hasTry = true ∧ k = .next t := by
  unfold State.needTry
  split <;> simp_all

theorem needSt_fault {s : State} {k : Out} {f : Fault} : s.needSt k = .fault f ↔ s.stInited = true ∧ k = .fault f := by
  unfold State.needSt
  split <;> simp_all

theorem needFp_fault {s : State} {k : Out} {f : Fault} : s.needFp k = .fault f ↔ s.fpInited = true ∧ k = .fault f := by
  unfold State.needFp
  split <;> simp_all

theorem needTry_fault {s : State} {k : Out} {f : Fault} : s.needTry k = .fault f ↔ s.cfg.hasTry = true ∧ k = .fault f := by
  unfold State.needTry
  split <;> simp_all

/-- A handler runs exactly when its request is 1; otherwise it holds (60_exceptions.md R234). -/
theorem takeInterrupt_next {s t : State} {q : Bool} {f : State → State} :
    s.takeInterrupt q f = .next t ↔
      (q = true ∧ t = { f s with result := .none }) ∨ (q = false ∧ t = { s with result := .held }) := by
  unfold State.takeInterrupt
  split <;> simp_all [done_next, hold_next]

/-! ### The schedule -/

theorem fetch_nil {s : State} (h : s.schedule = []) : s.fetch = none := by simp [State.fetch, h]

theorem fetch_cons {s : State} {d : Word40} {rest : List Word40} (h : s.schedule = d :: rest) :
    s.fetch = some (d, { s with schedule := rest }) := by simp [State.fetch, h]

end Machine
end Sys2Proof
end

