-- ==== Sys2Proof/Laws/Exec.lean ====
section
/-!
SUPPORT. For each operation, everything a step of it can do: when `exec` answers a next state, which arm of the rule ran and what
that state is. Provers cite these and do not unfold a meaning.
-/
namespace Sys2Proof
namespace Machine

/-! ### Lifecycle -/

/-- `ST_INIT` (41_serialtransport.md R150). -/
theorem stInit_next {s t : State} (h : exec .stInit s = .next t) :
    s.stInited = false ∧
      t = { s with
            inb := s.inb.created, out := s.out.created, rxIe := true, txIe := false, rxReady := false, txReady := true
            rxSig := 0, txSig := 0, lineIn := [], lineOut := [], stInited := true, result := .none } := by
  simp only [exec, execStInit] at h
  split at h
  · cases h
  · exact ⟨by simp_all, done_next.1 h⟩

/-- `FP_INIT` (42_framing.md R190). -/
theorem fpInit_next {s t : State} (h : exec .fpInit s = .next t) :
    s.stInited = true ∧ s.fpInited = false ∧
      t = { s with wcount := 0, putIdx := 5, pktOut := [], fpInited := true, result := .none } := by
  simp only [exec, execFpInit, needSt_next] at h
  obtain ⟨h1, h2⟩ := h
  split at h2
  · cases h2
  · exact ⟨h1, by simp_all, done_next.1 h2⟩

/-! ### ByteChannel (40_bytechannel.md) -/

/-- A guarded put on channel `h`: the put, or the other arm with the state unchanged. -/
theorem put_next {s t : State} {h : Chan} {a : Byte} {r q : Result}
    (hx : (if s.hasRoom h then finish (s.putOn h a) r else s.done q) = .next t) :
    ((s.chan h).used < s.cfg.n ∧ (s.chan h).endIdx < s.cfg.n ∧
        t = { s.setChan h ((s.chan h).afterPut s.cfg.n a) with result := r }) ∨
      (s.cfg.n ≤ (s.chan h).used ∧ t = { s with result := q }) := by
  split at hx
  · rename_i hr
    obtain ⟨u, hu, rfl⟩ := finish_next.1 hx
    obtain ⟨h1, rfl⟩ := putOn_ok.1 hu
    exact .inl ⟨hasRoom_iff.1 hr, h1, rfl⟩
  · rename_i hr
    exact .inr ⟨by simpa using hr, done_next.1 hx⟩

/-- A guarded get on channel `h`: the get, or the other arm with the state unchanged. -/
theorem get_next {s t : State} {h : Chan} {r : Byte → Result} {q : Result}
    (hx : (if s.hasData h then finishByte (s.getFrom h) r else s.done q) = .next t) :
    (∃ v, 0 < (s.chan h).used ∧ (s.chan h).start < s.cfg.n ∧ memGet (s.chan h).mem (s.chan h).start = some v ∧
        t = { s.setChan h ((s.chan h).afterGet s.cfg.n) with result := r v }) ∨
      ((s.chan h).used = 0 ∧ t = { s with result := q }) := by
  split at hx
  · rename_i hr
    obtain ⟨v, u, hu, rfl⟩ := finishByte_next.1 hx
    obtain ⟨h1, h2, rfl⟩ := getFrom_ok.1 hu
    exact .inl ⟨v, hasData_iff.1 hr, h1, h2, rfl⟩
  · rename_i hr
    exact .inr ⟨by simpa using hr, done_next.1 hx⟩

/-- `CH_PUT` (R120). -/
theorem chPut_next {s t : State} {h : Chan} {a : Byte} (hx : exec (.chPut h a) s = .next t) :
    s.stInited = true ∧
      (((s.chan h).used < s.cfg.n ∧ (s.chan h).endIdx < s.cfg.n ∧
          t = { s.setChan h ((s.chan h).afterPut s.cfg.n a) with result := .none }) ∨
        (s.cfg.n ≤ (s.chan h).used ∧ t = { s with result := .held })) := by
  simp only [exec, execChPut, needSt_next] at hx
  exact ⟨hx.1, put_next hx.2⟩

/-- `CH_GET` (R121). -/
theorem chGet_next {s t : State} {h : Chan} (hx : exec (.chGet h) s = .next t) :
    s.stInited = true ∧
      ((∃ v, 0 < (s.chan h).used ∧ (s.chan h).start < s.cfg.n ∧ memGet (s.chan h).mem (s.chan h).start = some v ∧
          t = { s.setChan h ((s.chan h).afterGet s.cfg.n) with result := .byte v }) ∨
        ((s.chan h).used = 0 ∧ t = { s with result := .held })) := by
  simp only [exec, execChGet, needSt_next] at hx
  exact ⟨hx.1, get_next hx.2⟩

/-- `CH_TRYPUT` (R122). -/
theorem chTryput_next {s t : State} {h : Chan} {a : Byte} (hx : exec (.chTryput h a) s = .next t) :
    s.cfg.hasTry = true ∧ s.stInited = true ∧
      (((s.chan h).used < s.cfg.n ∧ (s.chan h).endIdx < s.cfg.n ∧
          t = { s.setChan h ((s.chan h).afterPut s.cfg.n a) with result := .ok true }) ∨
        (s.cfg.n ≤ (s.chan h).used ∧ t = { s with result := .ok false })) := by
  simp only [exec, execChTryput, needTry_next, needSt_next] at hx
  exact ⟨hx.1, hx.2.1, put_next hx.2.2⟩

/-- `CH_TRYGET` (R123). -/
theorem chTryget_next {s t : State} {h : Chan} (hx : exec (.chTryget h) s = .next t) :
    s.cfg.hasTry = true ∧ s.stInited = true ∧
      ((∃ v, 0 < (s.chan h).used ∧ (s.chan h).start < s.cfg.n ∧ memGet (s.chan h).mem (s.chan h).start = some v ∧
          t = { s.setChan h ((s.chan h).afterGet s.cfg.n) with result := .okByte v }) ∨
        ((s.chan h).used = 0 ∧ t = { s with result := .ok false })) := by
  simp only [exec, execChTryget, needTry_next, needSt_next] at hx
  exact ⟨hx.1, hx.2.1, get_next hx.2.2⟩

/-! ### SerialTransport (41_serialtransport.md) -/

/-- `ST_IN` (R154). -/
theorem stIn_next {s t : State} (hx : exec .stIn s = .next t) :
    s.stInited = true ∧
      ((∃ v, 0 < s.inb.used ∧ s.inb.start < s.cfg.n ∧ memGet s.inb.mem s.inb.start = some v ∧
          t = { s with inb := s.inb.afterGet s.cfg.n, result := .byte v }) ∨
        (s.inb.used = 0 ∧ t = { s with result := .held })) :=
  chGet_next (h := .inb) hx

/-- `ST_OUT` (R155). -/
theorem stOut_next {s t : State} {a : Byte} (hx : exec (.stOut a) s = .next t) :
    s.stInited = true ∧
      ((s.out.used < s.cfg.n ∧ s.out.endIdx < s.cfg.n ∧
          t = { s with out := s.out.afterPut s.cfg.n a, txIe := true, result := .none }) ∨
        (s.cfg.n ≤ s.out.used ∧ t = { s with result := .held })) := by
  simp only [exec, execStOut, needSt_next] at hx
  refine ⟨hx.1, ?_⟩
  have h2 := hx.2
  split at h2
  · rename_i hr
    obtain ⟨u, hu, rfl⟩ := finish_next.1 h2
    obtain ⟨h1, rfl⟩ := submit_ok.1 hu
    exact .inl ⟨by simpa using hr, h1, rfl⟩
  · rename_i hr
    exact .inr ⟨by simpa using hr, hold_next.1 h2⟩

/-- `RX_ISR` (R152). -/
theorem rxIsr_next {s t : State} (hx : exec .rxIsr s = .next t) :
    s.stInited = true ∧
      ((s.irqRx = true ∧ t = { s with rxSlot := s.rxd, rxReady := false, rxSig := s.rxSig + 1, result := .none }) ∨
        (s.irqRx = false ∧ t = { s with result := .held })) := by
  simp only [exec, execRxIsr, needSt_next, takeInterrupt_next] at hx
  exact hx

/-- `RX_WORKER` (R153). -/
theorem rxWorker_next {s t : State} (hx : exec .rxWorker s = .next t) :
    s.stInited = true ∧
      ((s.rxSig = 1 ∧ s.inb.used < s.cfg.n ∧ s.inb.endIdx < s.cfg.n ∧
          t = { s with inb := s.inb.afterPut s.cfg.n s.rxSlot, rxSig := 0, result := .none }) ∨
        (¬(s.rxSig = 1 ∧ s.inb.used < s.cfg.n) ∧ t = { s with result := .held })) := by
  simp only [exec, execRxWorker, needSt_next] at hx
  refine ⟨hx.1, ?_⟩
  have h2 := hx.2
  split at h2
  · rename_i hr
    rw [canDeliver_iff] at hr
    obtain ⟨u, hu, rfl⟩ := finish_next.1 h2
    cases hp : s.putOn .inb s.rxSlot with
    | error f => simp [hp, Except.map] at hu
    | ok w =>
      obtain ⟨h3, rfl⟩ := putOn_ok.1 hp
      simp only [hp, Except.map, Except.ok.injEq] at hu
      exact .inl ⟨hr.1, hr.2, h3, by simp [← hu, State.waitRx, hr.1]⟩
  · rename_i hr
    exact .inr ⟨by simpa using hr, hold_next.1 h2⟩

/-- `TX_ISR` (R156). -/
theorem txIsr_next {s t : State} (hx : exec .txIsr s = .next t) :
    s.stInited = true ∧
      ((s.irqTx = true ∧ t = { s with txSig := s.txSig + 1, result := .none }) ∨
        (s.irqTx = false ∧ t = { s with result := .held })) := by
  simp only [exec, execTxIsr, needSt_next, takeInterrupt_next] at hx
  exact hx

/-- `TX_WORKER` (R157): it sends, it disables, or it holds. -/
theorem txWorker_next {s t : State} (hx : exec .txWorker s = .next t) :
    s.stInited = true ∧
      ((∃ v, s.txSig = 1 ∧ 0 < s.out.used ∧ s.out.start < s.cfg.n ∧ memGet s.out.mem s.out.start = some v ∧
          t = { s with out := s.out.afterGet s.cfg.n, txd := v, txReady := false, txSig := 0, result := .none }) ∨
        (s.txSig = 1 ∧ s.out.used = 0 ∧ t = { s with txIe := false, txSig := 0, result := .none }) ∨
        (s.txSig ≠ 1 ∧ t = { s with result := .held })) := by
  simp only [exec, execTxWorker, needSt_next] at hx
  refine ⟨hx.1, ?_⟩
  have h2 := hx.2
  split at h2
  · rename_i hs
    have hs : s.txSig = 1 := by simpa using hs
    split at h2
    · rename_i hr
      obtain ⟨u, hu, rfl⟩ := finish_next.1 h2
      cases hp : s.getFrom .out with
      | error f => simp [hp, Except.map] at hu
      | ok w =>
        obtain ⟨v, w⟩ := w
        obtain ⟨h3, h4, rfl⟩ := getFrom_ok.1 hp
        simp only [hp, Except.map, Except.ok.injEq] at hu
        exact .inl ⟨v, hs, by simpa using hr, h3, h4, by simp [← hu, State.waitTx, State.writeTxd, hs]⟩
    · rename_i hr
      exact .inr (.inl ⟨hs, by simpa using hr, by simpa [State.waitTx, hs] using done_next.1 h2⟩)
  · rename_i hs
    exact .inr (.inr ⟨by simpa using hs, hold_next.1 h2⟩)

/-- `LINE_RX` (R151); when `rx_ready` is set there is no next state. -/
theorem lineRx_next {s t : State} {a : Byte} (hx : exec (.lineRx a) s = .next t) :
    s.stInited = true ∧ s.rxReady = false ∧
      t = { s with rxd := a, rxReady := true, lineIn := s.lineIn ++ [a], result := .none } := by
  simp only [exec, execLineRx, needSt_next] at hx
  refine ⟨hx.1, ?_⟩
  have h2 := hx.2
  split at h2
  · cases h2
  · exact ⟨by simp_all, done_next.1 h2⟩

/-- `LINE_TX` (R158). -/
theorem lineTx_next {s t : State} (hx : exec .lineTx s = .next t) :
    s.stInited = true ∧
      ((s.txReady = false ∧ t = { s with lineOut := s.lineOut ++ [s.txd], txReady := true, result := .byte s.txd }) ∨
        (s.txReady = true ∧ t = { s with result := .held })) := by
  simp only [exec, execLineTx, needSt_next] at hx
  refine ⟨hx.1, ?_⟩
  have h2 := hx.2
  split at h2
  · rename_i hr
    exact .inr ⟨hr, hold_next.1 h2⟩
  · rename_i hr
    exact .inl ⟨by simpa using hr, done_next.1 h2⟩

/-! ### FramingProtocol (42_framing.md) -/

/-- `FP_STEP` (R192). -/
theorem fpStep_next {s t : State} :
    exec .fpStep s = .next t ↔
      s.fpInited = true ∧
        ((∃ b u, 0 < s.inb.used ∧ s.receiveByte = .ok (b, u) ∧ t = { u with result := .ok b }) ∨
          (s.inb.used = 0 ∧ t = { s with result := .held })) := by
  simp only [exec, execFpStep, needFp_next]
  refine and_congr_right fun _ => ?_
  by_cases h : 0 < s.inb.used
  · rw [if_pos (by simpa using h)]
    have h0 : ¬s.inb.used = 0 := by omega
    rcases s.receiveByte with f | ⟨b, u⟩ <;> simp [h, h0, done_next]
  · rw [if_neg (by simpa using h)]
    have h0 : s.inb.used = 0 := by omega
    simp [h0, hold_next]

/-- `FP_GET` (R193): the receive loop, then the packet, or a hold with `in` empty. -/
theorem fpGet_next {s t : State} :
    exec .fpGet s = .next t ↔
      s.fpInited = true ∧
        ∃ b u, s.receive = .ok (b, u) ∧
          t = { u with
                result := if b then .packet u.pkt.command u.pkt.param1 u.pkt.param2 u.pkt.param3 else .held } := by
  simp only [exec, execFpGet, needFp_next]
  refine and_congr_right fun _ => ?_
  rcases s.receive with f | ⟨_ | _, u⟩ <;> simp [done_next, hold_next]

/-- `FP_TRYGET` (R194): the receive loop, then the packet, or ok = 0 with `in` empty. -/
theorem fpTryget_next {s t : State} :
    exec .fpTryget s = .next t ↔
      s.fpInited = true ∧
        ∃ b u, s.receive = .ok (b, u) ∧
          t = { u with
                result :=
                  if b then .okPacket u.pkt.command u.pkt.param1 u.pkt.param2 u.pkt.param3 else .ok false } := by
  simp only [exec, execFpTryget, needFp_next]
  refine and_congr_right fun _ => ?_
  rcases s.receive with f | ⟨_ | _, u⟩ <;> simp [done_next]

/-- `FP_PUT` (R195). -/
theorem fpPut_next {s t : State} {a b c e : Byte} (hx : exec (.fpPut a b c e) s = .next t) :
    s.fpInited = true ∧
      ((s.putIdx = 5 ∧ t = { s with putBuf := Packet.ofPayload a b c e, putIdx := 0, result := .none }) ∨
        (s.putIdx ≠ 5 ∧ t = { s with result := .held })) := by
  simp only [exec, execFpPut, needFp_next] at hx
  refine ⟨hx.1, ?_⟩
  have h2 := hx.2
  split at h2
  · rename_i hr
    exact .inl ⟨by simpa using hr, done_next.1 h2⟩
  · rename_i hr
    exact .inr ⟨by simpa using hr, hold_next.1 h2⟩

/-- `FP_PUT_STEP` (R196). -/
theorem fpPutStep_next {s t : State} (hx : exec .fpPutStep s = .next t) :
    s.fpInited = true ∧
      ((s.putIdx < 5 ∧ s.out.used < s.cfg.n ∧ s.out.endIdx < s.cfg.n ∧
          t = { s with
                out := s.out.afterPut s.cfg.n (packetByte s.putBuf s.putIdx), txIe := true, putIdx := s.putIdx + 1
                result := .none }) ∨
        (¬(s.putIdx < 5 ∧ s.out.used < s.cfg.n) ∧ t = { s with result := .held })) := by
  simp only [exec, execFpPutStep, needFp_next] at hx
  refine ⟨hx.1, ?_⟩
  have h2 := hx.2
  split at h2
  · rename_i hr
    rw [canPush_iff] at hr
    obtain ⟨u, hu, rfl⟩ := finish_next.1 h2
    cases hp : s.submit (packetByte s.putBuf s.putIdx) with
    | error f => simp [hp, Except.map] at hu
    | ok w =>
      obtain ⟨h3, rfl⟩ := submit_ok.1 hp
      simp only [hp, Except.map, Except.ok.injEq] at hu
      exact .inl ⟨hr.1, hr.2, h3, by simp [← hu]⟩
  · rename_i hr
    exact .inr ⟨by simpa using hr, hold_next.1 h2⟩

/-- `FRAME` (30_encoding.md R102) has no step. -/
theorem frame_next {s t : State} {p : Packet} : exec (.frame p) s ≠ .next t := by simp [exec, execFrame]

end Machine
end Sys2Proof
end

