-- ==== Sys2Proof/Laws/PerInstr.lean ====
section
/-!
SUPPORT. Lemmas about every instruction as syntax, one per constructor. The family `EncodeFormat`: the operand bytes an instruction's
format does not use are 0x00 in its words (30_encoding.md R96).
-/
namespace Sys2Proof
namespace Laws

/-- R96: `OPD0` leaves all four operand bytes 0x00, `OPD1` the last three; `OPD4` and the wire format use every byte. -/
def EncodeFormat.Statement (i : Instr) : Prop :=
  (i.format = .opd0 → (encode i).byte 1 = 0#8 ∧ (encode i).byte 2 = 0#8 ∧ (encode i).byte 3 = 0#8 ∧ (encode i).byte 4 = 0#8) ∧
    (i.format = .opd1 → (encode i).byte 2 = 0#8 ∧ (encode i).byte 3 = 0#8 ∧ (encode i).byte 4 = 0#8)

theorem EncodeFormat.stInit : EncodeFormat.Statement .stInit := by simp [Statement, Instr.format, encode]
theorem EncodeFormat.fpInit : EncodeFormat.Statement .fpInit := by simp [Statement, Instr.format, encode]
theorem EncodeFormat.chPut (h : Chan) (a : Byte) : EncodeFormat.Statement (.chPut h a) := by
  simp [Statement, Instr.format, encode]
theorem EncodeFormat.chGet (h : Chan) : EncodeFormat.Statement (.chGet h) := by simp [Statement, Instr.format, encode]
theorem EncodeFormat.chTryput (h : Chan) (a : Byte) : EncodeFormat.Statement (.chTryput h a) := by
  simp [Statement, Instr.format, encode]
theorem EncodeFormat.chTryget (h : Chan) : EncodeFormat.Statement (.chTryget h) := by
  simp [Statement, Instr.format, encode]
theorem EncodeFormat.stIn : EncodeFormat.Statement .stIn := by simp [Statement, Instr.format, encode]
theorem EncodeFormat.stOut (a : Byte) : EncodeFormat.Statement (.stOut a) := by simp [Statement, Instr.format, encode]
theorem EncodeFormat.rxIsr : EncodeFormat.Statement .rxIsr := by simp [Statement, Instr.format, encode]
theorem EncodeFormat.rxWorker : EncodeFormat.Statement .rxWorker := by simp [Statement, Instr.format, encode]
theorem EncodeFormat.txIsr : EncodeFormat.Statement .txIsr := by simp [Statement, Instr.format, encode]
theorem EncodeFormat.txWorker : EncodeFormat.Statement .txWorker := by simp [Statement, Instr.format, encode]
theorem EncodeFormat.lineRx (a : Byte) : EncodeFormat.Statement (.lineRx a) := by simp [Statement, Instr.format, encode]
theorem EncodeFormat.lineTx : EncodeFormat.Statement .lineTx := by simp [Statement, Instr.format, encode]
theorem EncodeFormat.fpStep : EncodeFormat.Statement .fpStep := by simp [Statement, Instr.format, encode]
theorem EncodeFormat.fpGet : EncodeFormat.Statement .fpGet := by simp [Statement, Instr.format, encode]
theorem EncodeFormat.fpTryget : EncodeFormat.Statement .fpTryget := by simp [Statement, Instr.format, encode]
theorem EncodeFormat.fpPut (a b c e : Byte) : EncodeFormat.Statement (.fpPut a b c e) := by
  simp [Statement, Instr.format]
theorem EncodeFormat.fpPutStep : EncodeFormat.Statement .fpPutStep := by simp [Statement, Instr.format, encode]
theorem EncodeFormat.frame (p : Packet) : EncodeFormat.Statement (.frame p) := by simp [Statement, Instr.format]

end Laws
end Sys2Proof
end

