-- ==== Sys2Proof/Laws/Runs.lean ====
section
/-!
SUPPORT. Runs one operation at a time, and the quiescent state as a list of conditions.
-/
namespace Sys2Proof
namespace Machine

/-- A run of `i :: is` is one step of `i` and then a run of `is`. -/
theorem runOps_cons {i : Instr} {is : List Instr} {s t : State} :
    runOps (i :: is) s = .next t ↔ ∃ u, exec i s = .next u ∧ runOps is u = .next t := by
  simp only [runOps]
  cases exec i s <;> simp

/-- What the receiver takes in the first step of a run comes before what it takes in the rest. -/
theorem stepTrace_cons {i : Instr} {is : List Instr} {s t : State} (h : exec i s = .next t) :
    stepTrace (i :: is) s =
      (if i = .fpStep then ((s.inb.contents s.cfg.n).take 1).map fun x => (x, decide (t.result = .ok true)) else []) ++
        stepTrace is t := by
  simp only [stepTrace, h]

/-- R286, by agent: from `ST_INIT` on `RX_ISR`, `TX_ISR`, `RX_WORKER`, `TX_WORKER` and the line, from `FP_INIT` on `FP_PUT_STEP` and the
receiver inside an `FP_GET`. -/
theorem quiescent_iff {s : State} {g : Bool} :
    s.quiescent g = true ↔
      (s.stInited = true → s.irqRx = false ∧ s.irqTx = false ∧ ¬(s.rxSig = 1 ∧ s.inb.used < s.cfg.n) ∧ s.txSig ≠ 1 ∧
        s.txReady = true) ∧
      (s.fpInited = true → ¬(s.putIdx < 5 ∧ s.out.used < s.cfg.n) ∧ ¬(g = true ∧ 0 < s.inb.used)) := by
  have hg : (g && s.hasData .inb) = false ↔ ¬(g = true ∧ 0 < s.inb.used) := by
    by_cases h : 0 < s.inb.used <;> cases g <;> simp [State.hasData, State.chan, h]
  simp only [State.quiescent, Bool.and_eq_true, Bool.or_eq_true, Bool.not_eq_true', canDeliver_false_iff, canServe_false_iff,
    canPush_false_iff, and_assoc, hg, imp_iff_not_or, Bool.not_eq_true]

end Machine
end Sys2Proof
end

