-- ==== Sys2Proof/Tests/Slice0.lean ====
section
/-!
SUPPORT. The model's own tests: well-formedness, the words of the encodings, one step of each operation on a small state, and for
every obligation with hypotheses a concrete state and operands that meet them. Expected results are the vectors V1 to
V105 of 95_test_vectors.md, named at each test.
-/
namespace Sys2Proof
namespace Tests
open Sys2Proof.Machine

/-! ### Helpers -/

/-- The next state of an outcome, if it is one. -/
def nextOf : Out → Option State
  | .next t => some t
  | .fault _ => none
  | .refused _ => none

/-- The fault of an outcome, if it is one. -/
def faultOf : Out → Option Fault
  | .next _ => none
  | .fault f => some f
  | .refused _ => none

/-- The refusal of an outcome, if it is one. -/
def refusalOf : Out → Option Refusal
  | .next _ => none
  | .fault _ => none
  | .refused r => some r

/-- `INIT` of 95_test_vectors.md, the state after `ST_INIT; FP_INIT` (R47), with `N = 2^k`. -/
def init (k : Nat) : State :=
  { State.reset with
    cfg := { k := k, hasTry := true }, rxIe := true, txReady := true, putIdx := 5, stInited := true, fpInited := true }

/-- A machine without the TRY operations (R6 row HAS_TRY). -/
def noTry : State := { init 2 with cfg := { k := 2, hasTry := false } }

/-- `in` at the end of V1. -/
def c1 : Channel := { mem := [(0, 0x11#8)], start := 0, endIdx := 1, used := 1 }

/-- `in` at the end of V2: full. -/
def c2 : Channel := { mem := [(0, 0x11#8), (1, 0x22#8), (2, 0x33#8), (3, 0x44#8)], start := 0, endIdx := 0, used := 4 }

/-- `in` at the end of V5: one slot free, `end` behind `start`. -/
def c5 : Channel := { c2 with start := 1, used := 3 }

/-- A channel whose next put is in slot 3, the last of four (R120 (a), (c)). -/
def cLastPut : Channel := { mem := [(0, 0x11#8), (1, 0x22#8), (2, 0x33#8)], start := 0, endIdx := 3, used := 3 }

/-- A channel whose one byte is in slot 3, the last of four (R121 (a), (c)). -/
def cLastGet : Channel := { c2 with start := 3, used := 1 }

/-- A channel that holds the five bytes `AA 01 02 03 AA` (example 1). -/
def cFrame : Channel :=
  { mem := [(0, 0xAA#8), (1, 0x01#8), (2, 0x02#8), (3, 0x03#8), (4, 0xAA#8)], start := 0, endIdx := 5, used := 5 }

/-- A channel that holds `04 01 02 03 04 04` (V27). -/
def cOverlap : Channel :=
  { mem := [(0, 0x04#8), (1, 0x01#8), (2, 0x02#8), (3, 0x03#8), (4, 0x04#8), (5, 0x04#8)], start := 0, endIdx := 6, used := 6 }

/-- A channel that holds `FF AA 01 02 03 AA` (example 2): one noise byte and a frame. -/
def cNoise : Channel :=
  { mem := [(0, 0xFF#8), (1, 0xAA#8), (2, 0x01#8), (3, 0x02#8), (4, 0x03#8), (5, 0xAA#8)], start := 0, endIdx := 6, used := 6 }

/-- `INIT` with `in` replaced. -/
def withIn (k : Nat) (c : Channel) : State := { init k with inb := c }

/-- `INIT` with `out` replaced and the transmit event enabled. -/
def withOut (k : Nat) (c : Channel) : State := { init k with out := c, txIe := true }

/-- The window one byte short of the packet of R192's example. -/
def nearlyFrame : State :=
  { withIn 2 { mem := [(0, 0xAA#8)], start := 0, endIdx := 1, used := 1 } with
    w := ⟨0x00#8, 0xAA#8, 0x01#8, 0x02#8, 0x03#8⟩, wcount := 4 }

/-- The packet of example 1. -/
def pkt1 : Packet := ⟨0xAA#8, 0x01#8, 0x02#8, 0x03#8, 0xAA#8⟩

/-! ### Well-formedness (30_encoding.md R93): the smoke test, the frame of the source's misprinted scenario 1 -/

theorem test_wellFormed_frame : (Instr.frame pkt1).wellFormed = true := by decide
/-- V73: `AA 01 02 03 A8` is no frame. -/
theorem test_illFormed_frame : (Instr.frame ⟨0xAA#8, 0x01#8, 0x02#8, 0x03#8, 0xA8#8⟩).wellFormed = false := by decide
/-- V77: a damaged checksum. -/
theorem test_illFormed_frame_V77 : (Instr.frame ⟨0x09#8, 0x76#8, 0x01#8, 0x00#8, 0x7F#8⟩).wellFormed = false := by decide

/-! ### Words of the encodings (V66 to V105) -/

/-- V79, V80. -/
theorem test_decode_lifecycle :
    decode 0x0100000000#40 = .ok .stInit ∧ decode 0x0200000000#40 = .ok .fpInit := by decide
/-- V81 to V86; 15 and 16 from R97. -/
theorem test_decode_channel :
    decode 0x10AA000000#40 = .ok (.chPut .inb 0xAA#8) ∧ decode 0x11AA000000#40 = .ok (.chPut .out 0xAA#8) ∧
    decode 0x1200000000#40 = .ok (.chGet .inb) ∧ decode 0x1300000000#40 = .ok (.chGet .out) ∧
    decode 0x1455000000#40 = .ok (.chTryput .inb 0x55#8) ∧ decode 0x1555000000#40 = .ok (.chTryput .out 0x55#8) ∧
    decode 0x1600000000#40 = .ok (.chTryget .inb) ∧ decode 0x1700000000#40 = .ok (.chTryget .out) := by decide
/-- V87 to V94. -/
theorem test_decode_transport :
    decode 0x2000000000#40 = .ok .stIn ∧ decode 0x2104000000#40 = .ok (.stOut 0x04#8) ∧
    decode 0x2200000000#40 = .ok .rxIsr ∧ decode 0x2300000000#40 = .ok .rxWorker ∧
    decode 0x2400000000#40 = .ok .txIsr ∧ decode 0x2500000000#40 = .ok .txWorker ∧
    decode 0x28FF000000#40 = .ok (.lineRx 0xFF#8) ∧ decode 0x2900000000#40 = .ok .lineTx := by decide
/-- V95 to V99. -/
theorem test_decode_framing :
    decode 0x3000000000#40 = .ok .fpStep ∧ decode 0x3100000000#40 = .ok .fpGet ∧ decode 0x3200000000#40 = .ok .fpTryget ∧
    decode 0x3309760100#40 = .ok (.fpPut 0x09#8 0x76#8 0x01#8 0x00#8) ∧ decode 0x3400000000#40 = .ok .fpPutStep := by decide
/-- V100 to V105. -/
theorem test_decode_refused :
    decode 0x0000000000#40 = .error (.unassignedOpcode 0x00#8) ∧ decode 0x2201000000#40 = .error .nonzeroUnusedOperand ∧
    decode 0x2104000001#40 = .error .nonzeroUnusedOperand ∧ decode 0x3500000000#40 = .error (.unassignedOpcode 0x35#8) ∧
    decode 0x1800000000#40 = .error (.unassignedOpcode 0x18#8) ∧
    decode 0x2600000000#40 = .error (.unassignedOpcode 0x26#8) := by decide
/-- V72, V73, V75, V78: the wire frame. -/
theorem test_decode_frame :
    decodeFrame 0xAA010203AA#40 = .ok (.frame pkt1) ∧ decodeFrame 0xAA010203A8#40 = .error .notAFrame ∧
    decodeFrame 0xFFFFFFFF00#40 = .ok (.frame ⟨0xFF#8, 0xFF#8, 0xFF#8, 0xFF#8, 0x00#8⟩) ∧
    decodeFrame 0x8B1020308B#40 = .ok (.frame ⟨0x8B#8, 0x10#8, 0x20#8, 0x30#8, 0x8B#8⟩) := by decide
/-- V82, V86, V98, V76. -/
theorem test_encode :
    encode (.chPut .out 0xAA#8) = 0x11AA000000#40 ∧ encode (.chTryget .out) = 0x1700000000#40 ∧
    encode (.fpPut 0x09#8 0x76#8 0x01#8 0x00#8) = 0x3309760100#40 ∧
    encode (.frame ⟨0x09#8, 0x76#8, 0x01#8, 0x00#8, 0x7E#8⟩) = 0x097601007E#40 := by decide
/-- V66 to V71 and the `with_ack` values below them. -/
theorem test_command_byte :
    (ack 0x8B#8 = true ∧ code 0x8B#8 = 0x0B#8) ∧ (ack 0x0B#8 = false ∧ code 0x0B#8 = 0x0B#8) ∧
    (ack 0x80#8 = true ∧ code 0x80#8 = 0x00#8) ∧ (ack 0x7F#8 = false ∧ code 0x7F#8 = 0x7F#8) ∧
    withAck 0x0B#8 true = 0x8B#8 ∧ withAck 0x0B#8 false = 0x0B#8 ∧ withAck 0x7F#8 true = 0xFF#8 ∧
    withAck 0x00#8 true = 0x80#8 := by decide
/-- The opcode table's word of `CH_PUT out, 0xAA` (R102) is run as the first operation after power-on: refused, as R273 says. -/
theorem test_table_word :
    decodeTableWord 40 0x11AA000000 = some (.chPut .out 0xAA#8) ∧
    refusalOf (step (State.reset.withFetchWord 40 0x11AA000000)) = some .beforeStInit ∧
    (nextOf (step (State.reset.withFetchWord 40 0x0100000000))).map (·.stInited) = some true := by decide

/-! ### One step of each operation -/

/-- V13: the transport part of `INIT`. -/
theorem test_stInit :
    (nextOf (exec .stInit State.reset)).map (fun t => (t.rxIe, t.txIe, t.txReady, t.stInited)) =
      some (true, false, true, true) := by decide
/-- V46. -/
theorem test_stInit_twice : refusalOf (exec .stInit (init 8)) = some .secondInit := by decide
/-- R190. -/
theorem test_fpInit :
    (nextOf (exec .fpInit { init 8 with fpInited := false, putIdx := 0, wcount := 3 })).map
      (fun t => (t.wcount, t.putIdx, t.fpInited)) = some (0, 5, true) := by decide
/-- V6: a put into the slot a get freed. -/
theorem test_chPut :
    (nextOf (exec (.chPut .inb 0x55#8) (withIn 2 c5))).map (·.inb) =
      some { mem := [(0, 0x55#8), (1, 0x22#8), (2, 0x33#8), (3, 0x44#8)], start := 1, endIdx := 1, used := 4 } := by decide
/-- V11: a direct put on `out` does not touch `tx_ie`. -/
theorem test_chPut_out :
    (nextOf (exec (.chPut .out 0x77#8) (init 2))).map (fun t => (t.out, t.txIe)) =
      some ({ mem := [(0, 0x77#8)], start := 0, endIdx := 1, used := 1 }, false) := by decide
/-- V5: the slot keeps its byte. -/
theorem test_chGet :
    (nextOf (exec (.chGet .inb) (withIn 2 c2))).map (fun t => (t.inb, t.result)) = some (c5, .byte 0x11#8) := by decide
/-- R121 (a), (c): the last byte, from the last slot. -/
theorem test_chGet_wraps :
    (nextOf (exec (.chGet .inb) (withIn 2 cLastGet))).map (fun t => (t.inb.start, t.inb.used, t.result)) =
      some (0, 0, .byte 0x44#8) := by decide
/-- V4. -/
theorem test_chTryput_full :
    (nextOf (exec (.chTryput .inb 0x55#8) (withIn 2 c2))).map (fun t => (t.inb, t.result)) = some (c2, .ok false) := by decide
/-- R122: the last slot is filled. -/
theorem test_chTryput :
    (nextOf (exec (.chTryput .inb 0x44#8) (withIn 2 cLastPut))).map (fun t => (t.inb, t.result)) = some (c2, .ok true) := by
  decide
/-- V9. -/
theorem test_chTryget_empty :
    (nextOf (exec (.chTryget .inb) (init 2))).map (fun t => (t.inb.used, t.result)) = some (0, .ok false) := by decide
/-- R123 with V5's channel. -/
theorem test_chTryget :
    (nextOf (exec (.chTryget .inb) (withIn 2 c2))).map (fun t => (t.inb, t.result)) = some (c5, .okByte 0x11#8) := by decide
/-- V17. -/
theorem test_stIn :
    (nextOf (exec .stIn (withIn 8 c1))).map (fun t => (t.inb.start, t.inb.endIdx, t.inb.used, t.result)) =
      some (1, 1, 0, .byte 0x11#8) := by decide
/-- V30. -/
theorem test_stIn_held : (nextOf (exec .stIn (init 8))).map (·.result) = some .held := by decide
/-- V33. -/
theorem test_stOut :
    (nextOf (exec (.stOut 0x04#8) (init 8))).map (fun t => (t.out, t.txIe)) =
      some ({ mem := [(0, 0x04#8)], start := 0, endIdx := 1, used := 1 }, true) := by decide
/-- V44. -/
theorem test_stOut_held :
    (nextOf (exec (.stOut 0x99#8) (withOut 2 c2))).map (fun t => (t.out, t.result)) = some (c2, .held) := by decide
/-- V15. -/
theorem test_rxIsr :
    (nextOf (exec .rxIsr { init 8 with rxd := 0xAA#8, rxReady := true })).map (fun t => (t.rxSlot, t.rxReady, t.rxSig)) =
      some (0xAA#8, false, 1) := by decide
/-- V32: held off by the signal. -/
theorem test_rxIsr_held :
    (nextOf (exec .rxIsr { init 8 with rxd := 0xBB#8, rxReady := true, rxSig := 1, rxSlot := 0xAA#8 })).map
      (fun t => (t.rxSlot, t.rxReady, t.result)) = some (0xAA#8, true, .held) := by decide
/-- V16. -/
theorem test_rxWorker :
    (nextOf (exec .rxWorker { init 8 with rxSlot := 0xAA#8, rxSig := 1 })).map (fun t => (t.inb, t.rxSig)) =
      some ({ mem := [(0, 0xAA#8)], start := 0, endIdx := 1, used := 1 }, 0) := by decide
/-- P5: held while `in` is full. -/
theorem test_rxWorker_held :
    (nextOf (exec .rxWorker { withIn 2 c2 with rxSlot := 0x55#8, rxSig := 1 })).map (fun t => (t.inb, t.rxSig, t.result)) =
      some (c2, 1, .held) := by decide
/-- V35. -/
theorem test_txIsr : (nextOf (exec .txIsr (withOut 8 c1))).map (fun t => (t.txSig, t.result)) = some (1, .none) := by decide
/-- V34. -/
theorem test_txIsr_held : (nextOf (exec .txIsr (init 8))).map (fun t => (t.txSig, t.result)) = some (0, .held) := by decide
/-- V37: the byte is sent, `tx_ie` stays 1. -/
theorem test_txWorker_sends :
    (nextOf (exec .txWorker { withOut 8 c1 with txSig := 1 })).map (fun t => (t.txd, t.txReady, t.out.used, t.txSig, t.txIe)) =
      some (0x11#8, false, 0, 0, true) := by decide
/-- V40: nothing to send, DISABLED. -/
theorem test_txWorker_disables :
    (nextOf (exec .txWorker { init 8 with txIe := true, txSig := 1 })).map (fun t => (t.txReady, t.txSig, t.txIe)) =
      some (true, 0, false) := by decide
/-- V14. -/
theorem test_lineRx :
    (nextOf (exec (.lineRx 0xAA#8) (init 8))).map (fun t => (t.rxd, t.rxReady, t.lineIn)) = some (0xAA#8, true, [0xAA#8]) := by
  decide
/-- V31. -/
theorem test_lineRx_overrun :
    faultOf (exec (.lineRx 0xBB#8) { init 8 with rxReady := true }) = some (.lineOverrun 0xBB#8) := by decide
/-- V39. -/
theorem test_lineTx :
    (nextOf (exec .lineTx { init 8 with txd := 0x04#8, txReady := false })).map (fun t => (t.lineOut, t.txReady, t.result)) =
      some ([0x04#8], true, .byte 0x04#8) := by decide
/-- V42. -/
theorem test_lineTx_held : (nextOf (exec .lineTx (init 8))).map (fun t => (t.lineOut, t.result)) = some ([], .held) := by decide
/-- R192's example. -/
theorem test_fpStep_success :
    (nextOf (exec .fpStep nearlyFrame)).map (fun t => (t.w, t.wcount, t.pkt, t.pktOut, t.result)) =
      some (pkt1, 0, pkt1, [pkt1], .ok true) := by decide
/-- V23: no test with fewer than five bytes, though the zero window would pass. -/
theorem test_fpStep_no_test :
    (nextOf (exec .fpStep (withIn 2 { mem := [(0, 0x00#8)], start := 0, endIdx := 1, used := 1 }))).map
      (fun t => (t.wcount, t.pktOut, t.result)) = some (1, [], .ok false) := by decide
/-- Example 2: one noise byte, six bytes consumed. -/
theorem test_fpGet :
    (nextOf (exec .fpGet (withIn 3 cNoise))).map (fun t => (t.inb.start, t.inb.used, t.result)) =
      some (6, 0, .packet 0xAA#8 0x01#8 0x02#8 0x03#8) := by decide
/-- V20: the source's scenario 1 as printed; held, window retained. -/
theorem test_fpGet_held :
    (nextOf (exec .fpGet { withIn 2 { c1 with mem := [(0, 0xA8#8)] } with
        w := ⟨0x00#8, 0xAA#8, 0x01#8, 0x02#8, 0x03#8⟩, wcount := 4 })).map (fun t => (t.wcount, t.w.checksum, t.result)) =
      some (5, 0xA8#8, .held) := by decide
/-- V49's second call: the window was kept across the calls. -/
theorem test_fpTryget :
    (nextOf (exec .fpTryget nearlyFrame)).map (fun t => (t.inb.used, t.wcount, t.result)) =
      some (0, 0, .okPacket 0xAA#8 0x01#8 0x02#8 0x03#8) := by decide
/-- V48: three bytes are consumed and `pkt` stays. -/
theorem test_fpTryget_none_yet :
    (nextOf (exec .fpTryget (withIn 3 { cFrame with endIdx := 3, used := 3 }))).map (fun t => (t.inb.start, t.wcount, t.result)) =
      some (3, 3, .ok false) := by decide
/-- V57. -/
theorem test_fpPut :
    (nextOf (exec (.fpPut 0x09#8 0x76#8 0x01#8 0x00#8) (init 8))).map (fun t => (t.putBuf, t.putIdx)) =
      some (⟨0x09#8, 0x76#8, 0x01#8, 0x00#8, 0x7E#8⟩, 0) := by decide
/-- V63. -/
theorem test_fpPut_held :
    (nextOf (exec (.fpPut 0x09#8 0x76#8 0x01#8 0x00#8) { init 8 with putIdx := 1 })).map (fun t => (t.putIdx, t.result)) =
      some (1, .held) := by decide
/-- R196 at the last index: the checksum goes out and the sequencer is idle. -/
theorem test_fpPutStep :
    (nextOf (exec .fpPutStep { init 8 with putBuf := ⟨0x09#8, 0x76#8, 0x01#8, 0x00#8, 0x7E#8⟩, putIdx := 4 })).map
      (fun t => (t.out.mem, t.putIdx, t.txIe)) = some ([(0, 0x7E#8)], 5, true) := by decide
/-- V65: `out` full, `N = 2`. -/
theorem test_fpPutStep_held :
    (nextOf (exec .fpPutStep
        { withOut 1 { mem := [(0, 0x04#8), (1, 0x00#8)], start := 0, endIdx := 0, used := 2 } with putIdx := 2 })).map
      (fun t => (t.putIdx, t.out.used, t.result)) = some (2, 2, .held) := by decide
/-- R102. -/
theorem test_frame : refusalOf (exec (.frame pkt1) (init 8)) = some .notAnOperation := by decide
/-- V45, V55. -/
theorem test_refused_before_init :
    refusalOf (exec (.lineRx 0x00#8) State.reset) = some .beforeStInit ∧
    refusalOf (exec .fpStep { init 8 with fpInited := false }) = some .beforeFpInit ∧
    refusalOf (exec (.chTryget .inb) noTry) = some .tryNotOffered := by decide
/-- The request values listed below V46. -/
theorem test_irq :
    (init 8).irqRx = false ∧ (init 8).irqTx = false ∧ State.irqRx { init 8 with rxReady := true } = true ∧
    State.irqRx { init 8 with rxReady := true, rxSig := 1 } = false ∧ (withOut 8 c1).irqTx = true ∧
    State.irqTx { withOut 8 c1 with txSig := 1 } = false := by decide
/-- State S of P5: `in` is full, `rx_sig` and `rx_ready` are 1, and no step of the block's own agents is enabled (R286); after the
`FP_STEP` of continuation (b) `RX_WORKER` is. -/
theorem test_quiescent_P5 :
    let s := { withIn 2 c2 with rxSlot := 0x55#8, rxSig := 1, rxd := 0x66#8, rxReady := true }
    s.quiescent false = true ∧ s.quiescent true = false ∧
    (nextOf (exec .fpStep s)).map (fun t => t.quiescent false) = some false := by decide
/-- The end of P6, before `FP_INIT`, with two values of the unspecified `put_idx`; and `out` filled there by direct puts (log 25). -/
theorem test_quiescent_P6 :
    let p6 := { withIn 2 { c2 with start := 1, endIdx := 1, used := 0 } with fpInited := false }
    ∀ k ∈ [0, 5], ∀ c ∈ [p6.out, c2], State.quiescent { p6 with out := c, putIdx := k } false = true := by decide
/-- R35: the register view of `INIT`. -/
theorem test_registers : (init 8).register 0 = some 0x01#8 ∧ (init 8).register 1 = some 0x02#8 := by decide
/-- A put at `end = N-1` keeps the canonical form, and rewriting a slot keeps one entry. -/
theorem test_memSet :
    memSet [(0, 0x11#8), (2, 0x33#8)] 1 0x22#8 = [(0, 0x11#8), (1, 0x22#8), (2, 0x33#8)] ∧
    memSet [(0, 0x11#8)] 0 0x99#8 = [(0, 0x99#8)] := by decide

/-! ### Witnesses: for each obligation with hypotheses, states and operands that meet them, clause by clause -/

theorem witness_DecodeOfEncode :
    (Instr.chPut .out 0xFF#8).wellFormed = true ∧ (Instr.chPut .out 0xFF#8).isOperation = true ∧
    (Instr.frame pkt1).wellFormed = true ∧ (Instr.frame pkt1).isOperation = false := by decide
theorem witness_EncodeOfDecode :
    decode 0x1700000000#40 = .ok (.chTryget .out) ∧ decodeFrame 0xAA010203AA#40 = .ok (.frame pkt1) := by decide
/-- The first and the last opcode of each unassigned range of R98. -/
theorem witness_UnknownDescriptorIsRefused :
    ∀ x ∈ [(0x0000000000#40, 0x00), (0x0300000000#40, 0x03), (0x0F00000000#40, 0x0F), (0x1800000000#40, 0x18),
        (0x1F00000000#40, 0x1F), (0x2600000000#40, 0x26), (0x2700000000#40, 0x27), (0x2A00000000#40, 0x2A),
        (0x2F00000000#40, 0x2F), (0x3500000000#40, 0x35), (0xFF00000000#40, 0xFF)],
      x.2 = (x.1.extractLsb' 32 8).toNat ∧
        (x.2 = 0x00 ∨ (0x03 ≤ x.2 ∧ x.2 ≤ 0x0F) ∨ (0x18 ≤ x.2 ∧ x.2 ≤ 0x1F) ∨ x.2 = 0x26 ∨ x.2 = 0x27 ∨
          (0x2A ≤ x.2 ∧ x.2 ≤ 0x2F) ∨ 0x35 ≤ x.2) := by decide
/-- One word of each format with a byte it does not use, scheduled. -/
theorem witness_UnknownDescriptorIsRefused_unused :
    State.schedule { init 2 with schedule := [0x2201000000#40] } = 0x2201000000#40 :: [] ∧
    0x22 = ((0x2201000000#40).extractLsb' 32 8).toNat ∧ (0x2201000000#40).extractLsb' 0 32 ≠ 0#32 ∧
    0x21 = ((0x2104000001#40).extractLsb' 32 8).toNat ∧ (0x2104000001#40).extractLsb' 0 24 ≠ 0#24 := by decide
theorem witness_ChecksumIsBitwiseParity : ∃ i : Nat, i < 8 ∧ (cks 0x80#8 0x00#8 0x00#8 0x00#8).getLsbD i = true := ⟨7, by decide⟩
theorem witness_StepRunsScheduledOperation :
    State.schedule { init 2 with schedule := [0x2000000000#40] } = 0x2000000000#40 :: [] ∧
    decode 0x2000000000#40 = .ok .stIn ∧ (init 2).schedule = [] := by decide
theorem witness_StInitCreatesTheTransport : State.reset.stInited = false ∧ (init 8).stInited = true := by decide
theorem witness_FpInitEmptiesWindowAndSequencer :
    (∃ s : State, s.stInited = true ∧ s.fpInited = false) ∧ (∃ s : State, s.stInited = false) ∧
    (∃ s : State, s.stInited = true ∧ s.fpInited = true) :=
  ⟨⟨{ init 8 with fpInited := false }, by decide⟩, ⟨State.reset, by decide⟩, ⟨init 8, by decide⟩⟩
theorem witness_RequestsOutOfOrderAreRefused :
    (State.reset.stInited = false ∧ State.reset.cfg.hasTry = true) ∧ (noTry.stInited = true ∧ noTry.cfg.hasTry = false) ∧
    State.reset.fpInited = false ∧ ((init 8).stInited = true ∧ (init 8).fpInited = true) := by decide
/-- Room with one slot left and `end` in the last slot; full. -/
theorem witness_ChPutStoresOrHolds :
    (withIn 2 cLastPut).stInited = true ∧ ((withIn 2 cLastPut).chan .inb).used < (withIn 2 cLastPut).cfg.n ∧
    ((withIn 2 cLastPut).chan .inb).endIdx < (withIn 2 cLastPut).cfg.n ∧
    (withIn 2 c2).cfg.n ≤ ((withIn 2 c2).chan .inb).used := by decide
/-- One byte left in the last slot; empty. -/
theorem witness_ChGetTakesOldestOrHolds :
    (withOut 2 cLastGet).stInited = true ∧ 0 < ((withOut 2 cLastGet).chan .out).used ∧
    ((withOut 2 cLastGet).chan .out).start < (withOut 2 cLastGet).cfg.n ∧
    memGet ((withOut 2 cLastGet).chan .out).mem ((withOut 2 cLastGet).chan .out).start = some 0x44#8 ∧
    ((init 2).chan .out).used = 0 := by decide
theorem witness_ChTryputNeverHolds :
    (withIn 2 cLastPut).cfg.hasTry = true ∧ (withIn 2 cLastPut).stInited = true ∧
    ((withIn 2 cLastPut).chan .inb).used < (withIn 2 cLastPut).cfg.n ∧
    ((withIn 2 cLastPut).chan .inb).endIdx < (withIn 2 cLastPut).cfg.n ∧
    (withIn 2 c2).cfg.n ≤ ((withIn 2 c2).chan .inb).used := by decide
theorem witness_ChTrygetNeverHolds :
    (withIn 2 cLastGet).cfg.hasTry = true ∧ (withIn 2 cLastGet).stInited = true ∧
    0 < ((withIn 2 cLastGet).chan .inb).used ∧ ((withIn 2 cLastGet).chan .inb).start < (withIn 2 cLastGet).cfg.n ∧
    memGet ((withIn 2 cLastGet).chan .inb).mem ((withIn 2 cLastGet).chan .inb).start = some 0x44#8 ∧
    ((init 2).chan .inb).used = 0 := by decide
/-- A channel with one slot free whose occupied slots wrap. -/
theorem witness_ChannelIsAQueue : c5.good 4 ∧ c5.used < 4 ∧ 0 < c5.used := by decide
/-- As many bytes as the channel has slots, and the last of them. -/
theorem witness_BytesComeOutInTheOrderPut :
    MachineInv (init 1) ∧ (init 1).stInited = true ∧ ((init 1).chan .out).used = 0 ∧
    [0x11#8, 0x22#8].length ≤ (init 1).cfg.n ∧ [0x11#8, 0x22#8][1]? = some 0x22#8 := by decide
theorem witness_HeldPutCompletesAfterAGet :
    MachineInv (withIn 2 c2) ∧ (withIn 2 c2).stInited = true ∧ ((withIn 2 c2).chan .inb).used = (withIn 2 c2).cfg.n := by decide
theorem witness_LineRxDeliversOrOverruns :
    (∃ s : State, s.stInited = true ∧ s.rxReady = false) ∧ (∃ s : State, s.stInited = true ∧ s.rxReady = true) :=
  ⟨⟨init 2, by decide⟩, ⟨{ init 2 with rxReady := true }, by decide⟩⟩
/-- Requested; then each of the three terms false in turn. -/
theorem witness_RxIsrCapturesOneByte :
    (∃ s : State, s.stInited = true ∧ s.rxReady = true ∧ s.rxIe = true ∧ s.rxSig = 0) ∧
    (∀ s ∈ [init 2, { init 2 with rxReady := true, rxIe := false }, { init 2 with rxReady := true, rxSig := 1 }],
      s.stInited = true ∧ ¬(s.rxReady = true ∧ s.rxIe = true ∧ s.rxSig = 0)) :=
  ⟨⟨{ init 2 with rxReady := true }, by decide⟩, by decide⟩
theorem witness_RxWorkerDeliversTheSlot :
    (∃ s : State, s.stInited = true ∧ s.rxSig = 1 ∧ s.inb.used < s.cfg.n ∧ s.inb.endIdx < s.cfg.n) ∧
    (∀ s ∈ [init 2, { withIn 2 c2 with rxSig := 1 }], s.stInited = true ∧ ¬(s.rxSig = 1 ∧ s.inb.used < s.cfg.n)) :=
  ⟨⟨{ withIn 2 cLastPut with rxSig := 1 }, by decide⟩, by decide⟩
theorem witness_StInTakesOneReceivedByte :
    (withIn 2 cLastGet).stInited = true ∧ 0 < (withIn 2 cLastGet).inb.used ∧
    (withIn 2 cLastGet).inb.start < (withIn 2 cLastGet).cfg.n ∧
    memGet (withIn 2 cLastGet).inb.mem (withIn 2 cLastGet).inb.start = some 0x44#8 ∧ (init 2).inb.used = 0 := by decide
theorem witness_StOutPutsAndEnables :
    (withOut 2 cLastPut).stInited = true ∧ (withOut 2 cLastPut).out.used < (withOut 2 cLastPut).cfg.n ∧
    (withOut 2 cLastPut).out.endIdx < (withOut 2 cLastPut).cfg.n ∧ (withOut 2 c2).cfg.n ≤ (withOut 2 c2).out.used := by decide
theorem witness_TxIsrSignalsTheWorker :
    (withOut 2 c1).stInited = true ∧ (withOut 2 c1).irqTx = true ∧
    (∀ s ∈ [{ withOut 2 c1 with txReady := false }, init 2, { withOut 2 c1 with txSig := 1 }],
      ¬(s.txReady = true ∧ s.txIe = true ∧ s.txSig = 0)) := by decide
theorem witness_TxWorkerSendsOrDisables :
    (∃ (s : State) (v : Byte), s.stInited = true ∧ s.txSig = 1 ∧ 0 < s.out.used ∧ s.out.start < s.cfg.n ∧
      memGet s.out.mem s.out.start = some v) ∧
    (∃ s : State, s.stInited = true ∧ s.txSig = 1 ∧ s.out.used = 0) ∧ (∃ s : State, s.stInited = true ∧ s.txSig ≠ 1) :=
  ⟨⟨{ withOut 2 cLastGet with txSig := 1 }, 0x44#8, by decide⟩, ⟨{ init 2 with txSig := 1 }, by decide⟩, ⟨init 2, by decide⟩⟩
theorem witness_LineTxSendsTheByteInFlight :
    (∃ s : State, s.stInited = true ∧ s.txReady = false) ∧ (∃ s : State, s.stInited = true ∧ s.txReady = true) :=
  ⟨⟨{ init 2 with txReady := false }, by decide⟩, ⟨init 2, by decide⟩⟩
theorem witness_HandlersCommute : ∃ s : State, s.stInited = true ∧ s.irqRx = true ∧ s.irqTx = true :=
  ⟨{ withOut 2 c1 with rxReady := true }, by decide⟩
/-- One step through each transition of R159. -/
theorem witness_TransmitEnableMachine :
    (∃ t, exec (.stOut 0x04#8) (init 2) = .next t ∧ (init 2).txIe = false ∧ t.txIe = true ∧
      t.out.used = (init 2).out.used + 1) ∧
    (∃ s t, exec .txWorker s = .next t ∧ s.txIe = true ∧ t.txIe = false) ∧
    (∃ s t, exec .fpPutStep s = .next t ∧ t.out.used = s.out.used + 1) :=
  ⟨⟨_, rfl, by decide⟩, ⟨{ init 2 with txIe := true, txSig := 1 }, _, rfl, by decide⟩, ⟨{ init 2 with putIdx := 0 }, _, rfl, by decide⟩⟩
theorem witness_ReceiveBackPressure :
    ∃ s : State, MachineInv s ∧ s.stInited = true ∧ s.inb.used = s.cfg.n ∧ s.rxSig = 1 ∧ s.rxReady = true :=
  ⟨{ withIn 2 c2 with rxSig := 1, rxReady := true }, by decide⟩
theorem witness_RxByteCarriesOneByteIn :
    MachineInv (withIn 2 cLastPut) ∧ (withIn 2 cLastPut).stInited = true ∧ (withIn 2 cLastPut).rxReady = false ∧
    (withIn 2 cLastPut).rxIe = true ∧ (withIn 2 cLastPut).rxSig = 0 ∧
    (withIn 2 cLastPut).inb.used < (withIn 2 cLastPut).cfg.n := by decide
theorem witness_TxByteCarriesOneByteOut :
    MachineInv (withOut 2 cLastGet) ∧ (withOut 2 cLastGet).stInited = true ∧ (withOut 2 cLastGet).txReady = true ∧
    (withOut 2 cLastGet).txIe = true ∧ (withOut 2 cLastGet).txSig = 0 ∧
    (withOut 2 cLastGet).out.contents (withOut 2 cLastGet).cfg.n = 0x44#8 :: [] := by decide
theorem witness_FpStepSlidesAndTests :
    nearlyFrame.fpInited = true ∧ 0 < nearlyFrame.inb.used ∧ nearlyFrame.inb.start < nearlyFrame.cfg.n ∧
    memGet nearlyFrame.inb.mem nearlyFrame.inb.start = some 0xAA#8 ∧
    nearlyFrame.w.param1 ^^^ nearlyFrame.w.param2 ^^^ nearlyFrame.w.param3 ^^^ nearlyFrame.w.checksum = 0xAA#8 ∧
    ((init 2).fpInited = true ∧ (init 2).inb.used = 0) := by decide
/-- The success clause, the clause that goes on, the empty clause. -/
theorem witness_FpGetRepeatsFpStep :
    nearlyFrame.fpInited = true ∧ 0 < nearlyFrame.inb.used ∧
    (nextOf (exec .fpStep nearlyFrame)).map (·.result) = some (.ok true) ∧
    (withIn 3 cNoise).fpInited = true ∧ 0 < (withIn 3 cNoise).inb.used ∧
    (nextOf (exec .fpStep (withIn 3 cNoise))).map (·.result) = some (.ok false) ∧ (init 2).inb.used = 0 := by decide
theorem witness_FpTrygetRepeatsFpStep :
    nearlyFrame.fpInited = true ∧ 0 < nearlyFrame.inb.used ∧
    (nextOf (exec .fpStep nearlyFrame)).map (·.result) = some (.ok true) ∧
    (withIn 3 cFrame).fpInited = true ∧ 0 < (withIn 3 cFrame).inb.used ∧
    (nextOf (exec .fpStep (withIn 3 cFrame))).map (·.result) = some (.ok false) ∧ (init 2).inb.used = 0 := by decide
/-- Four bytes in all, three of them still in the channel. -/
theorem witness_FpTrygetKeepsAPartialFrame :
    ∃ s : State, MachineInv s ∧ s.fpInited = true ∧ s.wcount + s.inb.used < 5 ∧ s.wcount + s.inb.used = 4 :=
  ⟨{ withIn 2 cLastPut with wcount := 1 }, by decide⟩
/-- Example 1 for the three clauses: taken by five `FP_STEP`s, at the head of `in`, and sent from an idle sequencer with room for exactly
five bytes to a receiver that holds them. -/
theorem witness_PutThenGetReturnsThePayload :
    ((withIn 3 cFrame).fpInited = true ∧ (withIn 3 cFrame).wcount = 0 ∧ stepsOnly (List.replicate 5 .fpStep) ∧
      (nextOf (runOps (List.replicate 5 .fpStep) (withIn 3 cFrame))).isSome = true ∧
      (stepTrace (List.replicate 5 .fpStep) (withIn 3 cFrame)).map (·.1) =
        [0xAA#8, 0x01#8, 0x02#8, 0x03#8, 0xAA#8 ^^^ 0x01#8 ^^^ 0x02#8 ^^^ 0x03#8]) ∧
    (MachineInv (withIn 3 cFrame) ∧
      (withIn 3 cFrame).inb.contents (withIn 3 cFrame).cfg.n =
        [0xAA#8, 0x01#8, 0x02#8, 0x03#8, 0xAA#8 ^^^ 0x01#8 ^^^ 0x02#8 ^^^ 0x03#8] ++ []) ∧
    (MachineInv (withOut 3 cLastPut) ∧ (withOut 3 cLastPut).fpInited = true ∧ (withOut 3 cLastPut).putIdx = 5 ∧
      (withOut 3 cLastPut).out.used + 5 ≤ (withOut 3 cLastPut).cfg.n ∧
      (nextOf (runOps (Instr.fpSend 0xAA#8 0x01#8 0x02#8 0x03#8) (withOut 3 cLastPut))).map (fun t => t.out.contents t.cfg.n) =
        some ((withOut 3 cLastPut).out.contents 8 ++ (withIn 3 cFrame).inb.contents 8)) := by
  exact ⟨by decide, by decide, by decide⟩
/-- Example 2: one byte of noise, and the one window that begins inside it fails; taken by six `FP_STEP`s, and held at the head of `in`. -/
theorem witness_ResynchronisesAfterCleanNoise :
    (withIn 3 cNoise).fpInited = true ∧ (withIn 3 cNoise).wcount = 0 ∧ pkt1.valid = true ∧
    (∀ (i : Nat) (q : Packet), i < [0xFF#8].length → (([0xFF#8] ++ pkt1.bytes).drop i).take 5 = q.bytes → q.valid = false) ∧
    (stepsOnly (List.replicate 6 .fpStep) ∧ (nextOf (runOps (List.replicate 6 .fpStep) (withIn 3 cNoise))).isSome = true ∧
      (stepTrace (List.replicate 6 .fpStep) (withIn 3 cNoise)).map (·.1) = [0xFF#8] ++ pkt1.bytes) ∧
    (MachineInv (withIn 3 cNoise) ∧
      (withIn 3 cNoise).inb.contents (withIn 3 cNoise).cfg.n = [0xFF#8] ++ pkt1.bytes ++ []) := by
  refine ⟨by decide, by decide, by decide, ?_, by decide, by decide⟩
  intro i ⟨a, b, c, d, e⟩ hi hq
  obtain rfl : i = 0 := by simpa using hi
  simp only [Packet.bytes, pkt1, List.cons_append, List.nil_append, List.drop_zero, List.take, List.cons.injEq, and_true] at hq
  obtain ⟨rfl, rfl, rfl, rfl, rfl⟩ := hq
  decide
/-- `04 01 02 03 04`, and four bytes after it. -/
def late : State := withIn 4 { cOverlap with mem := cOverlap.mem ++ [(6, 0xAA#8), (7, 0x01#8), (8, 0x02#8)], endIdx := 9, used := 9 }
/-- V27: `04 01 02 03 04` is an accidental match and `01 02 03 04 04` the frame inside it; and four bytes after the match. -/
theorem witness_OverlappingFrameIsLost :
    (withIn 3 cOverlap).fpInited = true ∧ (withIn 3 cOverlap).wcount = 0 ∧
    Packet.valid ⟨0x04#8, 0x01#8, 0x02#8, 0x03#8, 0x04#8⟩ = true ∧
    (stepsOnly (List.replicate 6 .fpStep) ∧ (nextOf (runOps (List.replicate 6 .fpStep) (withIn 3 cOverlap))).isSome = true ∧
      (stepTrace (List.replicate 6 .fpStep) (withIn 3 cOverlap)).map (·.1) =
        Packet.bytes ⟨0x04#8, 0x01#8, 0x02#8, 0x03#8, 0x04#8⟩ ++ [0x04#8]) ∧
    (MachineInv (withIn 3 cOverlap) ∧
      (withIn 3 cOverlap).inb.contents (withIn 3 cOverlap).cfg.n =
        Packet.bytes ⟨0x04#8, 0x01#8, 0x02#8, 0x03#8, 0x04#8⟩ ++ [0x04#8] ++ []) ∧
    (late.wcount = 0 ∧ (nextOf (runOps (List.replicate 9 .fpStep) late)).isSome = true ∧
      (stepTrace (List.replicate 9 .fpStep) late).map (·.1) =
        Packet.bytes ⟨0x04#8, 0x01#8, 0x02#8, 0x03#8, 0x04#8⟩ ++ [0x04#8, 0xAA#8, 0x01#8, 0x02#8]) := by
  exact ⟨by decide, by decide, by decide, by decide, by decide, by decide⟩
/-- Two windows that differ in `w[0]` alone, with four bytes counted. -/
theorem witness_StaleWindowBytesAreNeverTested :
    ∃ (s s' t : State) (w : Packet), s.wcount ≤ 5 ∧ s' = { s with w := w } ∧ s'.windowBytes = s.windowBytes ∧ s'.w ≠ s.w ∧
      exec .fpStep s = .next t :=
  ⟨nearlyFrame, { nearlyFrame with w := ⟨0xFF#8, 0xAA#8, 0x01#8, 0x02#8, 0x03#8⟩ }, _,
    ⟨0xFF#8, 0xAA#8, 0x01#8, 0x02#8, 0x03#8⟩, by decide, rfl, by decide, by decide, rfl⟩
theorem witness_FpPutLoadsTheSequencer :
    (∃ s : State, s.fpInited = true ∧ s.putIdx = 5) ∧ (∃ s : State, s.fpInited = true ∧ s.putIdx ≠ 5) :=
  ⟨⟨init 2, by decide⟩, ⟨{ init 2 with putIdx := 4 }, by decide⟩⟩
/-- The first and the last byte of the packet; idle; `out` full. -/
theorem witness_FpPutStepPushesTheNextByte :
    (∀ k ∈ [0, 4], ∃ (s : State) (v : Byte), s.fpInited = true ∧ s.putIdx = k ∧ s.putBuf.bytes[s.putIdx]? = some v ∧
      s.out.used < s.cfg.n ∧ s.out.endIdx < s.cfg.n) ∧
    (∀ s ∈ [init 2, { withOut 2 c2 with putIdx := 0 }], s.fpInited = true ∧ ¬(s.putIdx < 5 ∧ s.out.used < s.cfg.n)) := by
  refine ⟨fun k hk => ⟨{ withOut 2 cLastPut with putBuf := pkt1, putIdx := k }, 0xAA#8, ?_⟩, by decide⟩
  obtain rfl | rfl : k = 0 ∨ k = 4 := by simpa using hk
  · decide
  · decide
/-- Room for exactly five bytes. -/
theorem witness_FpSendSubmitsTheFrame :
    MachineInv (withOut 3 cLastPut) ∧ (withOut 3 cLastPut).fpInited = true ∧ (withOut 3 cLastPut).putIdx = 5 ∧
    (withOut 3 cLastPut).out.used + 5 ≤ (withOut 3 cLastPut).cfg.n := by decide
theorem witness_FrameOfChannelOperations :
    (nextOf (exec (.chPut .inb 0x55#8) (withIn 2 c5))).isSome = true ∧
    (nextOf (exec (.chTryput .inb 0x55#8) (withIn 2 c5))).isSome = true ∧
    (nextOf (exec (.chGet .inb) (withIn 2 c5))).isSome = true ∧
    (nextOf (exec (.chTryget .inb) (withIn 2 c5))).isSome = true := by decide
theorem witness_FrameOfHandlersAndLine :
    (nextOf (exec .rxIsr { init 2 with rxReady := true })).isSome = true ∧ (nextOf (exec .txIsr (withOut 2 c1))).isSome = true ∧
    (nextOf (exec (.lineRx 0xAA#8) (init 2))).isSome = true ∧
    (nextOf (exec .lineTx { init 2 with txReady := false })).isSome = true := by decide
theorem witness_FrameOfWorkersAndPorts :
    (nextOf (exec .rxWorker { withIn 2 c5 with rxSig := 1 })).isSome = true ∧
    (nextOf (exec .stIn (withIn 2 c5))).isSome = true ∧ (nextOf (exec (.stOut 0x04#8) (withOut 2 c5))).isSome = true ∧
    (nextOf (exec .txWorker { withOut 2 c5 with txSig := 1 })).isSome = true := by decide
theorem witness_FrameOfFramingReceive :
    ∀ i ∈ [Instr.fpStep, .fpGet, .fpTryget], (nextOf (exec i (withIn 3 cFrame))).isSome = true := by decide
theorem witness_FrameOfFramingSend :
    (nextOf (exec (.fpPut 0x09#8 0x76#8 0x01#8 0x00#8) (init 2))).isSome = true ∧
    (nextOf (exec .fpPutStep { init 2 with putIdx := 4 })).isSome = true := by decide
/-- A state with bytes in both channels, a byte in each receive stage and a packet delivered, about to run `FP_STEP`. -/
def busy : State :=
  { withIn 2 c2 with
    out := c5, txIe := true, rxSlot := 0x55#8, rxSig := 1, rxd := 0x66#8, rxReady := true, pkt := pkt1, pktOut := [pkt1]
    lineIn := [0x11#8, 0x22#8, 0x33#8, 0x44#8, 0x55#8, 0x66#8], schedule := [0x3000000000#40] }
theorem witness_StepKeepsMachineInv : MachineInv busy ∧ (nextOf (step busy)).isSome = true := by decide
theorem witness_StepKeepsPacketInv : PacketInv busy ∧ (nextOf (step busy)).isSome = true := by decide
theorem witness_StepKeepsTransmitInv :
    MachineInv busy ∧ TransmitInv busy ∧ putsDirectlyOn .txIsr .out = false ∧ (nextOf (exec .txIsr busy)).isSome = true := by
  decide
/-- `busy` before its last byte arrived. -/
def lessBusy : State := { busy with rxReady := false, lineIn := [0x11#8, 0x22#8, 0x33#8, 0x44#8, 0x55#8] }
/-- One operation for each case: bytes left as they were, one taken, some taken; one added. -/
theorem witness_StepKeepsReceiveOrder :
    (MachineInv busy ∧ ReceiveInv busy ∧ busy.stInited = true ∧
      ∀ i ∈ [Instr.txIsr, .stIn, .fpStep, .chGet .inb, .fpGet],
        putsDirectlyOn i .inb = false ∧ (nextOf (exec i busy)).isSome = true) ∧
    (MachineInv lessBusy ∧ ReceiveInv lessBusy ∧ lessBusy.stInited = true ∧ putsDirectlyOn (.lineRx 0x66#8) .inb = false ∧
      (nextOf (exec (.lineRx 0x66#8) lessBusy)).isSome = true) := by
  exact ⟨by decide, by decide⟩
theorem witness_TransmissionKeepsSubmissionOrder :
    MachineInv busy ∧ busy.stInited = true ∧ putsDirectlyOn (.stOut 0x04#8) .out = false ∧
    getsDirectlyFrom (.stOut 0x04#8) .out = false ∧ (nextOf (exec (.stOut 0x04#8) busy)).isSome = true := by decide
theorem witness_ParametersAndLifecyclePersist :
    (nextOf (step busy)).isSome = true ∧ busy.stInited = true ∧ busy.fpInited = true ∧ busy.rxIe = true ∧
    ReceiveEnabledInv busy := by decide
theorem witness_GoodStatesFaultOnlyByLineOverrun :
    MachineInv busy ∧ faultOf (exec (.lineRx 0x77#8) busy) = some (.lineOverrun 0x77#8) := by decide
/-- `INIT`, quiescent with and without an `FP_GET` in progress; the state between the two initialisations; and a state whose byte in flight
is the one thing left to move. -/
theorem witness_QuiescentAgentsHold :
    (∀ s ∈ [init 2, { init 2 with fpInited := false, putIdx := 0 }],
      s.stInited = true ∧ s.quiescent true = true ∧ s.quiescent false = true ∧ MachineInv s ∧ TransmitInv s ∧
        s.inb.used < s.cfg.n) ∧
    State.quiescent { init 2 with txReady := false } false = false := by
  decide

end Tests
end Sys2Proof
end

section
/-!
The ring buffer as a queue (R25, R72, R120, R121): where the occupied slots of a good channel lie, what a put and a get do to the
bytes held, and that both keep the channel invariant.
-/
namespace Sys2Proof
namespace Machine

section
variable {n : Nat} {c : Channel}

/-- The slot the next put writes is not an occupied one. -/
theorem Channel.good.slot_ne_endIdx (hg : c.good n) (hroom : c.used < n) {j : Nat} (hj : j < c.used) :
    (c.start + j) % n ≠ c.endIdx := by
  obtain ⟨-, -, -, hend, -⟩ := hg
  rw [← hend]
  intro hslot
  have hju : j ≡ c.used [MOD n] := Nat.ModEq.add_left_cancel' c.start hslot
  exact hj.ne (hju.eq_of_lt_of_lt (hj.trans hroom) hroom)

theorem Channel.good.memGet_afterPut_of_lt (hg : c.good n) (hroom : c.used < n) (a : Byte) {j : Nat} (hj : j < c.used) :
    memGet (c.afterPut n a).mem ((c.start + j) % n) = memGet c.mem ((c.start + j) % n) :=
  memGet_memSet_of_ne _ _ (hg.slot_ne_endIdx hroom hj)

theorem Channel.good.memGet_afterPut_used (hg : c.good n) (a : Byte) :
    memGet (c.afterPut n a).mem ((c.start + c.used) % n) = some a := by
  obtain ⟨-, -, -, hend, -⟩ := hg
  rw [hend]
  exact memGet_memSet_self _ _ _

/-- R120 keeps the channel invariant. -/
theorem Channel.good.afterPut (hg : c.good n) (hroom : c.used < n) (a : Byte) : (c.afterPut n a).good n := by
  have ⟨_, hstart, hendlt, hend, hwf, hbound, hbyte⟩ := hg
  refine ⟨hroom, hstart, Nat.mod_lt _ (by omega), ?_, memSet_wf hwf _ _, memSet_bound hbound hendlt, fun j hj => ?_⟩
  · show (c.start + (c.used + 1)) % n = (c.endIdx + 1) % n
    rw [← hend, Nat.mod_add_mod, Nat.add_assoc]
  · show (memGet (c.afterPut n a).mem ((c.start + j) % n)).isSome = true
    obtain hlt | rfl := Nat.lt_succ_iff_lt_or_eq.1 hj
    · rw [hg.memGet_afterPut_of_lt hroom a hlt]
      exact hbyte j hlt
    · rw [hg.memGet_afterPut_used a, Option.isSome_some]

/-- After a get, the `j`-th occupied slot is the one that was the `j + 1`-st. -/
theorem Channel.afterGet_slot (n : Nat) (c : Channel) (j : Nat) : ((c.afterGet n).start + j) % n = (c.start + (j + 1)) % n := by
  show ((c.start + 1) % n + j) % n = _
  rw [Nat.mod_add_mod, Nat.add_assoc, Nat.add_comm 1 j]

/-- R121 keeps the channel invariant. -/
theorem Channel.good.afterGet (hg : c.good n) (hdata : 0 < c.used) : (c.afterGet n).good n := by
  obtain ⟨hused, hstart, hendlt, hend, hwf, hbound, hbyte⟩ := hg
  refine ⟨(Nat.sub_le _ _).trans hused, Nat.mod_lt _ (by omega), hendlt, ?_, hwf, hbound, fun j hj => ?_⟩
  · rw [Channel.afterGet_slot]
    show (c.start + (c.used - 1 + 1)) % n = c.endIdx
    rw [Nat.sub_add_cancel hdata, hend]
  · rw [Channel.afterGet_slot]
    exact hbyte (j + 1) (Nat.add_lt_of_lt_sub hj)

/-- A channel created by `ST_INIT` (R150) meets the channel invariant, whatever its backing store holds. -/
theorem Channel.good.created (hg : c.good n) : c.created.good n := by
  obtain ⟨-, hstart, -, -, hwf, hbound, -⟩ := hg
  have hn : 0 < n := by omega
  exact ⟨Nat.zero_le _, hn, hn, Nat.zero_mod _, hwf, hbound, fun j hj => absurd hj (Nat.not_lt_zero j)⟩

/-- The slot the next get reads holds a byte. -/
theorem Channel.good.exists_memGet_start (hg : c.good n) (hdata : 0 < c.used) : ∃ v, memGet c.mem c.start = some v := by
  obtain ⟨-, hstart, -, -, -, -, hbyte⟩ := hg
  have hfirst := hbyte 0 hdata
  rw [Nat.add_zero, Nat.mod_eq_of_lt hstart] at hfirst
  exact Option.isSome_iff_exists.1 hfirst

theorem Channel.good.contents_afterPut (hg : c.good n) (hroom : c.used < n) (a : Byte) :
    (c.afterPut n a).contents n = c.contents n ++ [a] := by
  have hheld : (List.range c.used).filterMap (fun j => memGet (c.afterPut n a).mem ((c.start + j) % n)) = c.contents n :=
    List.filterMap_congr fun j hj => hg.memGet_afterPut_of_lt hroom a (List.mem_range.1 hj)
  show (List.range (c.used + 1)).filterMap (fun j => memGet (c.afterPut n a).mem ((c.start + j) % n)) = _
  rw [List.range_succ, List.filterMap_append, hheld]
  simp [hg.memGet_afterPut_used a]

theorem Channel.good.contents_eq_cons (hg : c.good n) (hdata : 0 < c.used) {v : Byte} (hv : memGet c.mem c.start = some v) :
    c.contents n = v :: (c.afterGet n).contents n := by
  obtain ⟨-, hstart, -⟩ := hg
  have hrange : List.range c.used = 0 :: (List.range (c.used - 1)).map Nat.succ := by
    rw [← List.range_succ_eq_map, Nat.sub_add_cancel hdata]
  have hfirst : memGet c.mem ((c.start + 0) % n) = some v := by rwa [Nat.add_zero, Nat.mod_eq_of_lt hstart]
  rw [Channel.contents, hrange, List.filterMap_cons]
  simp only [hfirst, List.filterMap_map]
  exact congrArg _ (List.filterMap_congr fun j _ => by rw [Channel.afterGet_slot]; rfl)

theorem Channel.good.length_contents (hg : c.good n) : (c.contents n).length = c.used := by
  obtain ⟨-, -, -, -, -, -, hbyte⟩ := hg
  rw [Channel.contents, List.length_filterMap_eq_countP, List.countP_eq_length.2, List.length_range]
  exact fun j hj => hbyte j (List.mem_range.1 hj)

end

/-- Settles O19: a put writes the slot behind the occupied ones, a get reads the first of them and moves the others up by one. -/
theorem channelIsAQueue : Obligations.ChannelIsAQueue := by
  intro n h c hg
  have ⟨_, hstart, hendlt, _⟩ := hg
  refine ⟨fun a hroom => ?_, fun hdata => ?_, hg.length_contents⟩
  · exact ⟨c.afterPut n a, putByte_ok.2 ⟨hendlt, rfl⟩, hg.afterPut hroom a, hg.contents_afterPut hroom a⟩
  · obtain ⟨v, hv⟩ := hg.exists_memGet_start hdata
    exact ⟨v, c.afterGet n, getByte_ok.2 ⟨hstart, hv, rfl⟩, hg.afterGet hdata, hg.contents_eq_cons hdata hv⟩

end Machine
end Sys2Proof
end

section
/-!
A step is one scheduled operation (R20, R96), and what the receive loop keeps (42_framing.md R192 to R194).
-/
namespace Sys2Proof
namespace Machine

/-! ### A step -/

/-- Settles O9: the schedule's first descriptor is fetched, decoded and run. -/
theorem stepRunsScheduledOperation : Obligations.StepRunsScheduledOperation := by
  refine fun s => ⟨fun d rest i hs hd => ?_, fun hs => ?_⟩
  · simp only [step, fetch_cons hs, hd]
  · simp only [step, fetch_nil hs]

/-- A step that answers a next state found nothing scheduled, or ran the operation of the next descriptor. -/
theorem step_next {s t : State} (h : step s = .next t) :
    s.schedule = [] ∧ t = s ∨
      ∃ d rest i, s.schedule = d :: rest ∧ decode d = .ok i ∧ exec i { s with schedule := rest } = .next t := by
  cases hs : s.schedule with
  | nil =>
    simp only [step, fetch_nil hs, Host.Outcome.next.injEq] at h
    exact .inl ⟨rfl, h.symm⟩
  | cons d rest =>
    cases hd : decode d with
    | error e => simp [step, fetch_cons hs, hd] at h
    | ok i =>
      simp only [step, fetch_cons hs, hd] at h
      exact .inr ⟨d, rest, i, rfl, hd, h⟩

/-! ### The receive loop -/

/-- One iteration takes a byte of `in` and writes the window, its count, the current packet and its history. -/
theorem receiveByte_writes {s t : State} {b : Bool} (h : s.receiveByte = .ok (b, t)) :
    ∃ w k p ps, k ≤ 5 ∧
      t = { s with inb := s.inb.afterGet s.cfg.n, w := w, wcount := k, pkt := p, pktOut := ps } := by
  obtain ⟨-, x, -, hslide⟩ := receiveByte_ok.1 h
  obtain ⟨-, -, hok⟩ | ⟨-, hno⟩ := slide_cases { s with inb := s.inb.afterGet s.cfg.n } x
  · rw [hok, Prod.mk.injEq] at hslide
    exact ⟨_, 0, _, _, Nat.zero_le _, hslide.2.symm⟩
  · rw [hno, Prod.mk.injEq] at hslide
    exact ⟨_, _, _, _, Nat.min_le_right _ _, hslide.2.symm⟩

/-- Induction for the receive loop that counts the bytes of `in`: with no more iterations than bytes held, each finds one. -/
theorem receiveLoop_induct_of_le {P : State → Prop}
    (hstep : ∀ s t b, P s → 0 < s.inb.used → s.receiveByte = .ok (b, t) → P t) (fuel : Nat) {s t : State} {b : Bool}
    (hfuel : fuel ≤ s.inb.used) (hs : P s) (h : receiveLoop fuel s = .ok (b, t)) : P t := by
  induction fuel generalizing s with
  | zero =>
    simp only [receiveLoop, Except.ok.injEq, Prod.mk.injEq] at h
    exact h.2 ▸ hs
  | succ fuel ih =>
    have hdata : 0 < s.inb.used := by omega
    simp only [receiveLoop] at h
    split at h
    next u hu =>
      simp only [Except.ok.injEq, Prod.mk.injEq] at h
      exact h.2 ▸ hstep _ _ _ hs hdata hu
    next u hu =>
      have hleft : fuel ≤ u.inb.used := by
        obtain ⟨w, k, p, ps, -, rfl⟩ := receiveByte_writes hu
        exact Nat.le_sub_of_add_le hfuel
      exact ih hleft (hstep _ _ _ hs hdata hu) h
    next => cases h

/-- What one iteration on a byte held keeps, a whole receive (R193, R194) keeps. -/
theorem receive_induct {P : State → Prop} (hstep : ∀ s t b, P s → 0 < s.inb.used → s.receiveByte = .ok (b, t) → P t)
    {s t : State} {b : Bool} (hs : P s) (h : s.receive = .ok (b, t)) : P t :=
  receiveLoop_induct_of_le hstep _ le_rfl hs h

end Machine
end Sys2Proof
end

section
/-!
The machine invariant (R25, R37, R38, R40, R43): every operation, and so every step, keeps it.
-/
namespace Sys2Proof
namespace Machine

theorem MachineInv.chan_good {s : State} (hs : MachineInv s) (h : Chan) : (s.chan h).good s.cfg.n := by
  obtain ⟨-, hin, hout, -⟩ := hs
  cases h with
  | inb => exact hin
  | out => exact hout

theorem MachineInv.setChan {s : State} (hs : MachineInv s) (h : Chan) {c : Channel} (hc : c.good s.cfg.n) :
    MachineInv (s.setChan h c) := by
  obtain ⟨hk, hin, hout, hrest⟩ := hs
  cases h with
  | inb => exact ⟨hk, hc, hout, hrest⟩
  | out => exact ⟨hk, hin, hc, hrest⟩

theorem MachineInv.afterPut {s : State} (hs : MachineInv s) {h : Chan} (hroom : (s.chan h).used < s.cfg.n) (a : Byte) :
    MachineInv (s.setChan h ((s.chan h).afterPut s.cfg.n a)) :=
  hs.setChan h ((hs.chan_good h).afterPut hroom a)

theorem MachineInv.afterGet {s : State} (hs : MachineInv s) {h : Chan} (hdata : 0 < (s.chan h).used) :
    MachineInv (s.setChan h ((s.chan h).afterGet s.cfg.n)) :=
  hs.setChan h ((hs.chan_good h).afterGet hdata)

theorem MachineInv.of_receiveByte {s t : State} {b : Bool} (hs : MachineInv s) (hdata : 0 < s.inb.used)
    (h : s.receiveByte = .ok (b, t)) : MachineInv t := by
  obtain ⟨w, k, p, ps, hk, rfl⟩ := receiveByte_writes h
  obtain ⟨hcfg, hin, hout, hrx, htx, -, hrest⟩ := hs.afterGet (h := .inb) hdata
  exact ⟨hcfg, hin, hout, hrx, htx, hk, hrest⟩

theorem MachineInv.of_receive {s t : State} {b : Bool} (hs : MachineInv s) (h : s.receive = .ok (b, t)) : MachineInv t :=
  receive_induct (fun _ _ _ hu hdata hb => hu.of_receiveByte hdata hb) hs h

/-- Every operation keeps the machine invariant: a put has room, a get has a byte, and each count is written inside its range. `result`
enters no clause, so an arm that holds has the invariant as it stands. -/
theorem MachineInv.of_exec {i : Instr} {s t : State} (hs : MachineInv s) (h : exec i s = .next t) : MachineInv t := by
  have ⟨hk, hin, hout, hrx, htx, hw, hput, hinit, hready⟩ := hs
  cases i with
  | stInit =>
    obtain ⟨-, rfl⟩ := stInit_next h
    exact ⟨hk, hin.created, hout.created, Nat.zero_le _, Nat.zero_le _, hw, hput, fun _ => rfl, fun _ => rfl⟩
  | fpInit =>
    obtain ⟨hst, -, rfl⟩ := fpInit_next h
    exact ⟨hk, hin, hout, hrx, htx, Nat.zero_le _, le_rfl, fun _ => hst, hready⟩
  | chPut c a =>
    obtain ⟨-, ⟨hroom, -, rfl⟩ | ⟨-, rfl⟩⟩ := chPut_next h
    · exact hs.afterPut hroom a
    · exact hs
  | chGet c =>
    obtain ⟨-, ⟨v, hdata, -, -, rfl⟩ | ⟨-, rfl⟩⟩ := chGet_next h
    · exact hs.afterGet hdata
    · exact hs
  | chTryput c a =>
    obtain ⟨-, -, ⟨hroom, -, rfl⟩ | ⟨-, rfl⟩⟩ := chTryput_next h
    · exact hs.afterPut hroom a
    · exact hs
  | chTryget c =>
    obtain ⟨-, -, ⟨v, hdata, -, -, rfl⟩ | ⟨-, rfl⟩⟩ := chTryget_next h
    · exact hs.afterGet hdata
    · exact hs
  | stIn =>
    obtain ⟨-, ⟨v, hdata, -, -, rfl⟩ | ⟨-, rfl⟩⟩ := stIn_next h
    · exact hs.afterGet (h := .inb) hdata
    · exact hs
  | stOut a =>
    obtain ⟨-, ⟨hroom, -, rfl⟩ | ⟨-, rfl⟩⟩ := stOut_next h
    · exact hs.afterPut (h := .out) hroom a
    · exact hs
  | rxIsr =>
    obtain ⟨-, ⟨hirq, rfl⟩ | ⟨-, rfl⟩⟩ := rxIsr_next h
    · obtain ⟨-, -, hsig⟩ := irqRx_iff.1 hirq
      exact ⟨hk, hin, hout, Nat.succ_le_succ hsig.le, htx, hw, hput, hinit, hready⟩
    · exact hs
  | rxWorker =>
    obtain ⟨-, ⟨-, hroom, -, rfl⟩ | ⟨-, rfl⟩⟩ := rxWorker_next h
    · exact ⟨hk, hin.afterPut hroom _, hout, Nat.zero_le _, htx, hw, hput, hinit, hready⟩
    · exact hs
  | txIsr =>
    obtain ⟨-, ⟨hirq, rfl⟩ | ⟨-, rfl⟩⟩ := txIsr_next h
    · obtain ⟨hrdy, -, hsig⟩ := irqTx_iff.1 hirq
      exact ⟨hk, hin, hout, hrx, Nat.succ_le_succ hsig.le, hw, hput, hinit, fun _ => hrdy⟩
    · exact hs
  | txWorker =>
    obtain ⟨-, ⟨v, -, hdata, -, -, rfl⟩ | ⟨-, -, rfl⟩ | ⟨-, rfl⟩⟩ := txWorker_next h
    · exact ⟨hk, hin, hout.afterGet hdata, hrx, Nat.zero_le _, hw, hput, hinit, fun h0 => absurd h0 Nat.zero_ne_one⟩
    · exact ⟨hk, hin, hout, hrx, Nat.zero_le _, hw, hput, hinit, fun h0 => absurd h0 Nat.zero_ne_one⟩
    · exact hs
  | lineRx a =>
    obtain ⟨-, -, rfl⟩ := lineRx_next h
    exact hs
  | lineTx =>
    obtain ⟨-, ⟨-, rfl⟩ | ⟨-, rfl⟩⟩ := lineTx_next h
    · exact ⟨hk, hin, hout, hrx, htx, hw, hput, hinit, fun _ => rfl⟩
    · exact hs
  | fpStep =>
    obtain ⟨-, ⟨b, u, hdata, hu, rfl⟩ | ⟨-, rfl⟩⟩ := fpStep_next.1 h
    · exact MachineInv.of_receiveByte (t := u) hs hdata hu
    · exact hs
  | fpGet =>
    obtain ⟨-, b, u, hu, rfl⟩ := fpGet_next.1 h
    exact MachineInv.of_receive (t := u) hs hu
  | fpTryget =>
    obtain ⟨-, b, u, hu, rfl⟩ := fpTryget_next.1 h
    exact MachineInv.of_receive (t := u) hs hu
  | fpPut a b c e =>
    obtain ⟨-, ⟨-, rfl⟩ | ⟨-, rfl⟩⟩ := fpPut_next h
    · exact ⟨hk, hin, hout, hrx, htx, hw, Nat.zero_le _, hinit, hready⟩
    · exact hs
  | fpPutStep =>
    obtain ⟨-, ⟨hidx, hroom, -, rfl⟩ | ⟨-, rfl⟩⟩ := fpPutStep_next h
    · exact ⟨hk, hin, hout.afterPut hroom _, hrx, htx, hw, hidx, hinit, hready⟩
    · exact hs
  | frame p => exact absurd h frame_next

/-- Settles O52: `MachineInv.of_exec` at the operation the step runs; `schedule` enters no clause. -/
theorem stepKeepsMachineInv : Obligations.StepKeepsMachineInv := by
  intro s t hs h
  obtain ⟨-, rfl⟩ | ⟨d, rest, i, -, -, hexec⟩ := step_next h
  · exact hs
  · exact MachineInv.of_exec (s := { s with schedule := rest }) hs hexec

end Machine
end Sys2Proof
end

section
/-!
What no step takes back: the parameters, the initialisations and the receive enable (R26, R33, R48).
-/
namespace Sys2Proof
namespace Machine

/-- The elements only an initialisation writes: the parameters, `st_inited`, `fp_inited` and `rx_ie` (R26, R48, R33). -/
def State.lifecycle (s : State) : Config × Bool × Bool × Bool := (s.cfg, s.stInited, s.fpInited, s.rxIe)

theorem State.lifecycle_setChan (s : State) (h : Chan) (c : Channel) : (s.setChan h c).lifecycle = s.lifecycle := by
  cases h <;> rfl

theorem receiveByte_lifecycle {s t : State} {b : Bool} (h : s.receiveByte = .ok (b, t)) : t.lifecycle = s.lifecycle := by
  obtain ⟨w, k, p, ps, -, rfl⟩ := receiveByte_writes h
  rfl

theorem receive_lifecycle {s t : State} {b : Bool} (h : s.receive = .ok (b, t)) : t.lifecycle = s.lifecycle :=
  receive_induct (P := fun u => u.lifecycle = s.lifecycle) (fun _ _ _ hu _ hb => (receiveByte_lifecycle hb).trans hu) rfl h

/-- No operation but the two initialisations writes a lifecycle element. -/
theorem exec_lifecycle {i : Instr} {s t : State} (h : exec i s = .next t) (hst : i ≠ .stInit) (hfp : i ≠ .fpInit) :
    t.lifecycle = s.lifecycle := by
  cases i with
  | stInit => exact absurd rfl hst
  | fpInit => exact absurd rfl hfp
  | chPut c a =>
    obtain ⟨-, ⟨-, -, rfl⟩ | ⟨-, rfl⟩⟩ := chPut_next h
    · exact s.lifecycle_setChan c _
    · rfl
  | chGet c =>
    obtain ⟨-, ⟨v, -, -, -, rfl⟩ | ⟨-, rfl⟩⟩ := chGet_next h
    · exact s.lifecycle_setChan c _
    · rfl
  | chTryput c a =>
    obtain ⟨-, -, ⟨-, -, rfl⟩ | ⟨-, rfl⟩⟩ := chTryput_next h
    · exact s.lifecycle_setChan c _
    · rfl
  | chTryget c =>
    obtain ⟨-, -, ⟨v, -, -, -, rfl⟩ | ⟨-, rfl⟩⟩ := chTryget_next h
    · exact s.lifecycle_setChan c _
    · rfl
  | stIn => obtain ⟨-, ⟨v, -, -, -, rfl⟩ | ⟨-, rfl⟩⟩ := stIn_next h <;> rfl
  | stOut a => obtain ⟨-, ⟨-, -, rfl⟩ | ⟨-, rfl⟩⟩ := stOut_next h <;> rfl
  | rxIsr => obtain ⟨-, ⟨-, rfl⟩ | ⟨-, rfl⟩⟩ := rxIsr_next h <;> rfl
  | rxWorker => obtain ⟨-, ⟨-, -, -, rfl⟩ | ⟨-, rfl⟩⟩ := rxWorker_next h <;> rfl
  | txIsr => obtain ⟨-, ⟨-, rfl⟩ | ⟨-, rfl⟩⟩ := txIsr_next h <;> rfl
  | txWorker => obtain ⟨-, ⟨v, -, -, -, -, rfl⟩ | ⟨-, -, rfl⟩ | ⟨-, rfl⟩⟩ := txWorker_next h <;> rfl
  | lineRx a =>
    obtain ⟨-, -, rfl⟩ := lineRx_next h
    rfl
  | lineTx => obtain ⟨-, ⟨-, rfl⟩ | ⟨-, rfl⟩⟩ := lineTx_next h <;> rfl
  | fpStep =>
    obtain ⟨-, ⟨b, u, -, hu, rfl⟩ | ⟨-, rfl⟩⟩ := fpStep_next.1 h
    · exact receiveByte_lifecycle (t := u) hu
    · rfl
  | fpGet =>
    obtain ⟨-, b, u, hu, rfl⟩ := fpGet_next.1 h
    exact receive_lifecycle (t := u) hu
  | fpTryget =>
    obtain ⟨-, b, u, hu, rfl⟩ := fpTryget_next.1 h
    exact receive_lifecycle (t := u) hu
  | fpPut a b c e => obtain ⟨-, ⟨-, rfl⟩ | ⟨-, rfl⟩⟩ := fpPut_next h <;> rfl
  | fpPutStep => obtain ⟨-, ⟨-, -, -, rfl⟩ | ⟨-, rfl⟩⟩ := fpPutStep_next h <;> rfl
  | frame p => exact absurd h frame_next

/-- The parameters stay, an initialised part stays initialised, `rx_ie` stays set, and so does its being set from `ST_INIT` on. -/
def LifecycleKept (s t : State) : Prop :=
  t.cfg = s.cfg ∧ (s.stInited = true → t.stInited = true) ∧ (s.fpInited = true → t.fpInited = true) ∧
    (s.rxIe = true → t.rxIe = true) ∧ (ReceiveEnabledInv s → ReceiveEnabledInv t)

theorem LifecycleKept.of_lifecycle_eq {s t : State} (h : t.lifecycle = s.lifecycle) : LifecycleKept s t := by
  simp only [State.lifecycle, Prod.mk.injEq] at h
  obtain ⟨hcfg, hst, hfp, hie⟩ := h
  exact ⟨hcfg, hst ▸ id, hfp ▸ id, hie ▸ id, fun hs => by rwa [ReceiveEnabledInv, hst, hie]⟩

theorem exec_lifecycleKept {i : Instr} {s t : State} (h : exec i s = .next t) : LifecycleKept s t := by
  by_cases hst : i = .stInit
  · subst hst
    obtain ⟨-, rfl⟩ := stInit_next h
    exact ⟨rfl, fun _ => rfl, id, fun _ => rfl, fun _ _ => rfl⟩
  by_cases hfp : i = .fpInit
  · subst hfp
    obtain ⟨-, -, rfl⟩ := fpInit_next h
    exact ⟨rfl, id, fun _ => rfl, id, id⟩
  exact .of_lifecycle_eq (exec_lifecycle h hst hfp)

/-- Settles O57: only `ST_INIT` and `FP_INIT` write these elements, and both set them. -/
theorem parametersAndLifecyclePersist : Obligations.ParametersAndLifecyclePersist := by
  intro s t h
  obtain ⟨-, rfl⟩ | ⟨d, rest, i, -, -, hexec⟩ := step_next h
  · exact LifecycleKept.of_lifecycle_eq rfl
  · exact exec_lifecycleKept (s := { s with schedule := rest }) hexec

end Machine
end Sys2Proof
end

section
/-!
The register view of the transport's flags (R35).
-/
namespace Sys2Proof
namespace Machine

/-- Bit by bit: bits 0 and 1 are those given, every other bit is 0. -/
theorem getLsbD_twoBits (b0 b1 : Bool) (i : Nat) :
    (twoBits b0 b1).getLsbD i = if i = 0 then b0 else if i = 1 then b1 else false := by
  have happend : (twoBits b0 b1).getLsbD i = (0#6 ++ BitVec.ofBool b1 ++ BitVec.ofBool b0).getLsbD i := rfl
  rw [happend, BitVec.getLsbD_append, BitVec.getLsbD_append]
  rcases i with _ | _ | i <;> simp

theorem twoBits_ushiftRight_two (b0 b1 : Bool) : twoBits b0 b1 >>> 2 = 0#8 :=
  BitVec.eq_of_getLsbD_eq fun i _ => by simp [getLsbD_twoBits, Nat.add_comm 2]

/-- The two low bits of a byte are what its mask `0x03` keeps. -/
theorem twoBits_getLsbD (b : Byte) : twoBits (b.getLsbD 0) (b.getLsbD 1) = b &&& 0x03#8 := by
  refine BitVec.eq_of_getLsbD_eq fun i hi => ?_
  rw [getLsbD_twoBits, BitVec.getLsbD_and]
  interval_cases i <;> simp

/-- Settles O60: both registers are `twoBits` of their flags. -/
theorem registerView : Obligations.RegisterView := by
  refine fun s b => ⟨⟨?_, ?_, ?_⟩, ⟨?_, ?_, ?_⟩, twoBits_getLsbD b, rfl, rfl, rfl, rfl⟩
  · exact getLsbD_twoBits s.rxIe s.txIe 0
  · exact getLsbD_twoBits s.rxIe s.txIe 1
  · exact twoBits_ushiftRight_two s.rxIe s.txIe
  · exact getLsbD_twoBits s.rxReady s.txReady 0
  · exact getLsbD_twoBits s.rxReady s.txReady 1
  · exact twoBits_ushiftRight_two s.rxReady s.txReady

end Machine
end Sys2Proof
end

section
/-!
The assembly window (R39, R40): the elements below the newest `wcount` are never tested.
-/
namespace Sys2Proof
namespace Machine

/-- R40: shifting a byte in puts it behind the newest `k` bytes, and of six the oldest drops out. -/
theorem drop_bytes_shiftIn (w : Packet) (x : Byte) {k : Nat} (hk : k ≤ 5) :
    (shiftIn w x).bytes.drop (5 - min (k + 1) 5) = (w.bytes.drop (5 - k) ++ [x]).drop (k + 1 - 5) := by
  interval_cases k <;> rfl

theorem packet_bytes_injective : Function.Injective Packet.bytes := by
  rintro ⟨⟩ ⟨⟩ h
  simpa [Packet.bytes] using h

/-- R192: five bytes in the window that are a valid packet empty it and are delivered. -/
theorem slide_of_valid {s : State} {x : Byte} (h : min (s.wcount + 1) 5 = 5 ∧ (shiftIn s.w x).valid = true) :
    s.slide x = (true, { s with w := shiftIn s.w x, wcount := 0, pkt := shiftIn s.w x,
                                pktOut := s.pktOut ++ [shiftIn s.w x] }) :=
  if_pos h

/-- R192: without a success the byte is kept in the window. -/
theorem slide_of_not_valid {s : State} {x : Byte} (h : ¬(min (s.wcount + 1) 5 = 5 ∧ (shiftIn s.w x).valid = true)) :
    s.slide x = (false, { s with w := shiftIn s.w x, wcount := min (s.wcount + 1) 5 }) :=
  if_neg h

/-- The slide of two states that differ in window elements below the newest `wcount`: the same ok bit, and next states that differ in
such elements only. The test is made only on five bytes that both windows share. -/
theorem slide_of_windowBytes_eq {s : State} {w : Packet} (x : Byte) (hk : s.wcount ≤ 5)
    (hw : State.windowBytes { s with w := w } = s.windowBytes) :
    State.slide { s with w := w } x = ((s.slide x).1, { (s.slide x).2 with w := shiftIn w x }) ∧
      State.windowBytes { (s.slide x).2 with w := shiftIn w x } = (s.slide x).2.windowBytes := by
  have hnewest :
      (shiftIn w x).bytes.drop (5 - min (s.wcount + 1) 5) = (shiftIn s.w x).bytes.drop (5 - min (s.wcount + 1) 5) := by
    rw [drop_bytes_shiftIn w x hk, drop_bytes_shiftIn s.w x hk]
    exact congrArg (fun l => (l ++ [x]).drop (s.wcount + 1 - 5)) hw
  have hfull (h5 : min (s.wcount + 1) 5 = 5) : shiftIn w x = shiftIn s.w x :=
    packet_bytes_injective (by simpa only [h5, Nat.sub_self, List.drop_zero] using hnewest)
  by_cases hc : min (s.wcount + 1) 5 = 5 ∧ (shiftIn s.w x).valid = true
  · have ⟨h5, hvalid⟩ := hc
    rw [slide_of_valid hc, slide_of_valid (s := { s with w := w }) ⟨h5, hfull h5 ▸ hvalid⟩, hfull h5]
    exact ⟨rfl, rfl⟩
  · rw [slide_of_not_valid hc, slide_of_not_valid (s := { s with w := w }) fun ⟨h5, hvalid⟩ => hc ⟨h5, hfull h5 ▸ hvalid⟩]
    exact ⟨rfl, hnewest⟩

/-- Settles O42. -/
theorem staleWindowBytesAreNeverTested : Obligations.StaleWindowBytesAreNeverTested := by
  rintro s _ t w hk rfl hw h
  obtain ⟨hfp, ⟨b, u, hdata, hu, rfl⟩ | ⟨hempty, rfl⟩⟩ := fpStep_next.1 h
  · obtain ⟨hstart, x, hx, hslide⟩ := receiveByte_ok.1 hu
    obtain ⟨hsame, hwin⟩ := slide_of_windowBytes_eq (s := { s with inb := s.inb.afterGet s.cfg.n }) x hk hw
    rw [hslide] at hsame hwin
    exact ⟨_, fpStep_next.2 ⟨hfp, .inl ⟨b, _, hdata, receiveByte_ok.2 ⟨hstart, x, hx, hsame⟩, rfl⟩⟩, rfl, hwin⟩
  · exact ⟨_, fpStep_next.2 ⟨hfp, .inr ⟨hempty, rfl⟩⟩, rfl, hw⟩

end Machine
end Sys2Proof
end

section
/-!
The two encodings (R90 to R102): the words of an instruction are the one spelling of it, so what `decode` accepts is read off `encode`.
-/
namespace Sys2Proof

/-! ### Words byte by byte -/

/-- A word is the one with its five bytes. -/
theorem Word40.pack_eq_iff {op a b c e : Byte} {d : Word40} :
    Word40.pack op a b c e = d ↔ d.byte 0 = op ∧ d.byte 1 = a ∧ d.byte 2 = b ∧ d.byte 3 = c ∧ d.byte 4 = e := by
  constructor
  · rintro rfl
    simp
  · rintro ⟨rfl, rfl, rfl, rfl, rfl⟩
    exact Word40.pack_byte d

theorem Word40.byte_and (d m : Word40) (i : Nat) : (d &&& m).byte i = d.byte i &&& m.byte i :=
  BitVec.extractLsb'_and

/-! ### The opcode map -/

theorem decode_pack (op a b c e : Byte) : decode (Word40.pack op a b c e) = decodeFields op a b c e := by
  simp [decode]

theorem opd0_ok {a b c e : Byte} {i j : Instr} :
    opd0 a b c e i = .ok j ↔ (a = 0#8 ∧ b = 0#8 ∧ c = 0#8 ∧ e = 0#8) ∧ i = j := by
  unfold opd0
  split <;> simp [*]

theorem opd1_ok {b c e : Byte} {i j : Instr} :
    opd1 b c e i = .ok j ↔ (b = 0#8 ∧ c = 0#8 ∧ e = 0#8) ∧ i = j := by
  unfold opd1
  split <;> simp [*]

/-- A row of format `OPD0`: what its descriptor decodes to has that descriptor as its words. -/
theorem encode_of_opd0_ok {op a b c e : Byte} {i j : Instr} (h : opd0 a b c e i = .ok j) (hi : i.isOperation = true)
    (henc : encode i = .pack op 0#8 0#8 0#8 0#8) : j.isOperation = true ∧ encode j = .pack op a b c e := by
  obtain ⟨⟨rfl, rfl, rfl, rfl⟩, rfl⟩ := opd0_ok.1 h
  exact ⟨hi, henc⟩

/-- The same of a row of format `OPD1`. -/
theorem encode_of_opd1_ok {op a b c e : Byte} {i j : Instr} (h : opd1 b c e i = .ok j) (hi : i.isOperation = true)
    (henc : encode i = .pack op a 0#8 0#8 0#8) : j.isOperation = true ∧ encode j = .pack op a b c e := by
  obtain ⟨⟨rfl, rfl, rfl⟩, rfl⟩ := opd1_ok.1 h
  exact ⟨hi, henc⟩

/-- R97, row by row: what the opcode map gives is an operation, and the five bytes are its words. -/
theorem encode_of_decodeFields_ok {op a b c e : Byte} {i : Instr} (h : decodeFields op a b c e = .ok i) :
    i.isOperation = true ∧ encode i = .pack op a b c e := by
  have hcode {k : Nat} (hop : op.toNat = k) : op = BitVec.ofNat 8 k := by rw [← hop, BitVec.ofNat_toNat, BitVec.setWidth_eq]
  unfold decodeFields at h
  split at h
  case h_24 => cases h -- no row
  case h_22 hop => -- `OPD4`
    cases h
    exact ⟨rfl, hcode hop ▸ rfl⟩
  case h_3 hop | h_4 hop | h_7 hop | h_8 hop | h_12 hop | h_17 hop => -- `OPD1`
    exact encode_of_opd1_ok h rfl (hcode hop ▸ rfl)
  all_goals
    next hop => exact encode_of_opd0_ok h rfl (hcode hop ▸ rfl)

theorem decode_encode {i : Instr} (hi : i.isOperation = true) : decode (encode i) = .ok i := by
  cases i with
  | chPut h a => cases h <;> exact decode_pack ..
  | chGet h => cases h <;> exact decode_pack ..
  | chTryput h a => cases h <;> exact decode_pack ..
  | chTryget h => cases h <;> exact decode_pack ..
  | frame p => cases hi
  | stOut a => exact decode_pack ..
  | lineRx a => exact decode_pack ..
  | fpPut a b c e => exact decode_pack ..
  | _ => rfl

/-- What decodes is exactly an operation, from its own words (R96, R97). -/
theorem decode_ok_iff {d : Word40} {i : Instr} : decode d = .ok i ↔ i.isOperation = true ∧ encode i = d := by
  refine ⟨fun h => ?_, fun ⟨hi, hd⟩ => hd ▸ decode_encode hi⟩
  have hfields := encode_of_decodeFields_ok h
  rwa [Word40.pack_byte] at hfields

/-- The words a row of the opcode table stands for. -/
theorem decode_ok_iff_encode {d : Word40} {i : Instr} (hi : i.isOperation = true) : decode d = .ok i ↔ encode i = d := by
  rw [decode_ok_iff, and_iff_right hi]

/-! ### The wire frame (R90, R93) -/

@[simp] theorem Packet.ofWord_toWord (p : Packet) : Packet.ofWord p.toWord = p := by
  simp [Packet.ofWord, Packet.toWord]

theorem Packet.toWord_ofWord (f : Word40) : (Packet.ofWord f).toWord = f := Word40.pack_byte f

/-- The frame reader gives exactly the valid packet a string is the words of. -/
theorem decodeFrame_ok_iff {f : Word40} {i : Instr} :
    decodeFrame f = .ok i ↔ (Packet.ofWord f).valid = true ∧ .frame (Packet.ofWord f) = i := by
  unfold decodeFrame
  split <;> simp [*]

theorem decodeFrame_toWord {p : Packet} (hp : p.valid = true) : decodeFrame p.toWord = .ok (.frame p) := by
  simp [decodeFrame_ok_iff, hp]

/-- Settles O1: the operations by `decode_encode`; a valid frame is read back from its five bytes. -/
theorem decodeOfEncode : Obligations.DecodeOfEncode := by
  refine fun i hwf => ⟨decode_encode, fun hi => ?_⟩
  cases i with
  | frame p => exact decodeFrame_toWord hwf
  | _ => cases hi

/-- Settles O2: an operation has the one spelling `decode_ok_iff` names; a string is the words of its own fields. -/
theorem encodeOfDecode : Obligations.EncodeOfDecode := by
  refine fun d i => ⟨decode_ok_iff.1, fun h => ?_⟩
  obtain ⟨hvalid, rfl⟩ := decodeFrame_ok_iff.1 h
  exact ⟨rfl, hvalid, Packet.toWord_ofWord d⟩

/-- Settles O10: the dispatcher refuses a frame, and what decodes is an operation. -/
theorem frameIsNoOperation : Obligations.FrameIsNoOperation := by
  refine fun p s => ⟨rfl, fun d h => ?_⟩
  obtain ⟨hop, -⟩ := decode_ok_iff.1 h
  cases hop

end Sys2Proof
end

section
/-!
The opcode table (R97, R102) and the illegal descriptors (R98), both read off the words of each operation.
-/
namespace Sys2Proof

/-! ### Match and mask -/

/-- The mask `0xFE` leaves the base of a channel opcode, whichever channel its bit 0 selects. -/
theorem exists_eq_withChan_iff {base : Byte} (hbase : base &&& 0xFE#8 = base) (op : Byte) :
    (∃ h, op = withChan base h) ↔ op &&& 0xFE#8 = base := by
  constructor
  · rintro ⟨_ | _, rfl⟩
    · exact hbase
    · show (base ||| 0x01#8) &&& 0xFE#8 = base
      rw [BitVec.and_or_distrib_right, hbase]
      exact BitVec.or_zero
  · rintro rfl
    cases hbit : op[0] with
    | false =>
      refine ⟨.inb, BitVec.eq_of_getLsbD_eq fun i hi => ?_⟩
      show op.getLsbD i = (op &&& 0xFE#8).getLsbD i
      rw [BitVec.getLsbD_and]
      interval_cases i <;> simp [hbit]
    | true =>
      refine ⟨.out, BitVec.eq_of_getLsbD_eq fun i hi => ?_⟩
      show op.getLsbD i = (op &&& 0xFE#8 ||| 0x01#8).getLsbD i
      rw [BitVec.getLsbD_or, BitVec.getLsbD_and]
      interval_cases i <;> simp [hbit]

theorem Byte.and_ones (x : Byte) : x &&& 0xFF#8 = x := BitVec.and_allOnes

section
variable (d : Word40) (op : Byte)

/-- A mask acts byte by byte. -/
theorem and_pack_eq_pack_iff (mop ma mb mc me a b c e : Byte) :
    d &&& .pack mop ma mb mc me = .pack op a b c e ↔
      d.byte 0 &&& mop = op ∧ d.byte 1 &&& ma = a ∧ d.byte 2 &&& mb = b ∧ d.byte 3 &&& mc = c ∧ d.byte 4 &&& me = e := by
  rw [eq_comm, Word40.pack_eq_iff]
  simp [Word40.byte_and]

/-- `OPD0`: every bit counts. -/
theorem decode_ok_iff_mask_opd0 {i : Instr} (hi : i.isOperation = true) (henc : encode i = .pack op 0#8 0#8 0#8 0#8) :
    decode d = .ok i ↔ d &&& .pack 0xFF#8 0xFF#8 0xFF#8 0xFF#8 0xFF#8 = .pack op 0#8 0#8 0#8 0#8 := by
  rw [decode_ok_iff_encode hi, henc]
  simp [Word40.pack_eq_iff, and_pack_eq_pack_iff, Byte.and_ones]

/-- `OPD0` with a channel: every bit but the select bit. -/
theorem decode_ok_iff_mask_opd0_chan {i : Chan → Instr} (hop : op &&& 0xFE#8 = op) (hi : ∀ h, (i h).isOperation = true)
    (henc : ∀ h, encode (i h) = .pack (withChan op h) 0#8 0#8 0#8 0#8) :
    (∃ h, decode d = .ok (i h)) ↔ d &&& .pack 0xFE#8 0xFF#8 0xFF#8 0xFF#8 0xFF#8 = .pack op 0#8 0#8 0#8 0#8 := by
  simp [decode_ok_iff_encode, hi, henc, Word40.pack_eq_iff, and_pack_eq_pack_iff, Byte.and_ones, ← exists_eq_withChan_iff hop]

/-- `OPD1`: every bit but those of the operand. -/
theorem decode_ok_iff_mask_opd1 {i : Byte → Instr} (hi : ∀ a, (i a).isOperation = true)
    (henc : ∀ a, encode (i a) = .pack op a 0#8 0#8 0#8) :
    (∃ a, decode d = .ok (i a)) ↔ d &&& .pack 0xFF#8 0#8 0xFF#8 0xFF#8 0xFF#8 = .pack op 0#8 0#8 0#8 0#8 := by
  simp [decode_ok_iff_encode, hi, henc, Word40.pack_eq_iff, and_pack_eq_pack_iff, Byte.and_ones]

/-- `OPD1` with a channel: neither the operand nor the select bit. -/
theorem decode_ok_iff_mask_opd1_chan {i : Chan → Byte → Instr} (hop : op &&& 0xFE#8 = op)
    (hi : ∀ h a, (i h a).isOperation = true) (henc : ∀ h a, encode (i h a) = .pack (withChan op h) a 0#8 0#8 0#8) :
    (∃ h a, decode d = .ok (i h a)) ↔ d &&& .pack 0xFE#8 0#8 0xFF#8 0xFF#8 0xFF#8 = .pack op 0#8 0#8 0#8 0#8 := by
  simp [decode_ok_iff_encode, hi, henc, Word40.pack_eq_iff, and_pack_eq_pack_iff, Byte.and_ones, ← exists_eq_withChan_iff hop]

/-- `OPD4`: the opcode only. -/
theorem decode_ok_iff_mask_opd4 {i : Byte → Byte → Byte → Byte → Instr} (hi : ∀ a b c e, (i a b c e).isOperation = true)
    (henc : ∀ a b c e, encode (i a b c e) = .pack op a b c e) :
    (∃ a b c e, decode d = .ok (i a b c e)) ↔ d &&& .pack 0xFF#8 0#8 0#8 0#8 0#8 = .pack op 0#8 0#8 0#8 0#8 := by
  simp [decode_ok_iff_encode, hi, henc, Word40.pack_eq_iff, and_pack_eq_pack_iff, Byte.and_ones]

end

/-- Settles O3: a row is the words of its operation, and the mask of its format leaves what they have in common. -/
theorem decodeAgreesWithOpcodeTable : Obligations.DecodeAgreesWithOpcodeTable := fun d =>
  ⟨decode_ok_iff_mask_opd0 d 0x01#8 rfl rfl,
    decode_ok_iff_mask_opd0 d 0x02#8 rfl rfl,
    decode_ok_iff_mask_opd1_chan d 0x10#8 rfl (fun _ _ => rfl) fun _ _ => rfl,
    decode_ok_iff_mask_opd0_chan d 0x12#8 rfl (fun _ => rfl) fun _ => rfl,
    decode_ok_iff_mask_opd1_chan d 0x14#8 rfl (fun _ _ => rfl) fun _ _ => rfl,
    decode_ok_iff_mask_opd0_chan d 0x16#8 rfl (fun _ => rfl) fun _ => rfl,
    decode_ok_iff_mask_opd0 d 0x20#8 rfl rfl,
    decode_ok_iff_mask_opd1 d 0x21#8 (fun _ => rfl) fun _ => rfl,
    decode_ok_iff_mask_opd0 d 0x22#8 rfl rfl,
    decode_ok_iff_mask_opd0 d 0x23#8 rfl rfl,
    decode_ok_iff_mask_opd0 d 0x24#8 rfl rfl,
    decode_ok_iff_mask_opd0 d 0x25#8 rfl rfl,
    decode_ok_iff_mask_opd1 d 0x28#8 (fun _ => rfl) fun _ => rfl,
    decode_ok_iff_mask_opd0 d 0x29#8 rfl rfl,
    decode_ok_iff_mask_opd0 d 0x30#8 rfl rfl,
    decode_ok_iff_mask_opd0 d 0x31#8 rfl rfl,
    decode_ok_iff_mask_opd0 d 0x32#8 rfl rfl,
    decode_ok_iff_mask_opd4 d 0x33#8 (fun _ _ _ _ => rfl) fun _ _ _ _ => rfl,
    decode_ok_iff_mask_opd0 d 0x34#8 rfl rfl⟩

/-- Settles O4: each descriptor is the words of its operation; the two frames have the right and a wrong checksum. -/
theorem workedDescriptorsDecode : Obligations.WorkedDescriptorsDecode := by
  have word {d : Word40} {i : Instr} (hi : i.isOperation = true) (hd : encode i = d) : decode d = .ok i :=
    (decode_ok_iff_encode hi).2 hd
  exact ⟨word rfl rfl, word rfl rfl, word rfl rfl, word rfl rfl, word rfl rfl, word rfl rfl, word rfl rfl, word rfl rfl,
    word rfl rfl, word rfl rfl, rfl, rfl⟩

/-! ### Illegal descriptors -/

/-- R96 for every instruction: the operand bytes a format does not use are zero. -/
theorem encode_unused_bytes : ∀ i : Instr, Laws.EncodeFormat.Statement i
  | .stInit => Laws.EncodeFormat.stInit
  | .fpInit => Laws.EncodeFormat.fpInit
  | .chPut h a => Laws.EncodeFormat.chPut h a
  | .chGet h => Laws.EncodeFormat.chGet h
  | .chTryput h a => Laws.EncodeFormat.chTryput h a
  | .chTryget h => Laws.EncodeFormat.chTryget h
  | .stIn => Laws.EncodeFormat.stIn
  | .stOut a => Laws.EncodeFormat.stOut a
  | .rxIsr => Laws.EncodeFormat.rxIsr
  | .rxWorker => Laws.EncodeFormat.rxWorker
  | .txIsr => Laws.EncodeFormat.txIsr
  | .txWorker => Laws.EncodeFormat.txWorker
  | .lineRx a => Laws.EncodeFormat.lineRx a
  | .lineTx => Laws.EncodeFormat.lineTx
  | .fpStep => Laws.EncodeFormat.fpStep
  | .fpGet => Laws.EncodeFormat.fpGet
  | .fpTryget => Laws.EncodeFormat.fpTryget
  | .fpPut a b c e => Laws.EncodeFormat.fpPut a b c e
  | .fpPutStep => Laws.EncodeFormat.fpPutStep
  | .frame p => Laws.EncodeFormat.frame p

/-- The opcodes of R97 whose row has the given format. -/
def Format.opcodes : Format → List Nat
  | .opd0 => [0x01, 0x02, 0x12, 0x13, 0x16, 0x17, 0x20, 0x22, 0x23, 0x24, 0x25, 0x29, 0x30, 0x31, 0x32, 0x34]
  | .opd1 => [0x10, 0x11, 0x14, 0x15, 0x21, 0x28]
  | .opd4 => [0x33]
  | .wire5 => []

/-- R97: the opcode of an operation is one of its format's. -/
theorem opcode_mem_opcodes {i : Instr} (hi : i.isOperation = true) : ((encode i).byte 0).toNat ∈ i.format.opcodes := by
  cases i with
  | frame p => cases hi
  | chPut h a => cases h <;> simp [encode, withChan, Instr.format, Format.opcodes]
  | chGet h => cases h <;> simp [encode, withChan, Instr.format, Format.opcodes]
  | chTryput h a => cases h <;> simp [encode, withChan, Instr.format, Format.opcodes]
  | chTryget h => cases h <;> simp [encode, withChan, Instr.format, Format.opcodes]
  | _ => simp [encode, Instr.format, Format.opcodes]

/-- No opcode is of two formats. -/
theorem Format.eq_of_mem_opcodes {f g : Format} {k : Nat} (hf : k ∈ f.opcodes) (hg : k ∈ g.opcodes) : f = g := by
  have hdisjoint : ∀ j ∈ f.opcodes, j ∈ g.opcodes → f = g := by cases f <;> cases g <;> decide
  exact hdisjoint k hf hg

/-- R98's list of unassigned opcodes: they are of no format. -/
theorem Format.not_mem_opcodes {k : Nat}
    (hk : k = 0x00 ∨ (0x03 ≤ k ∧ k ≤ 0x0F) ∨ (0x18 ≤ k ∧ k ≤ 0x1F) ∨ k = 0x26 ∨ k = 0x27 ∨ (0x2A ≤ k ∧ k ≤ 0x2F) ∨ 0x35 ≤ k)
    (f : Format) : k ∉ f.opcodes := by
  intro hmem
  cases f <;> simp only [Format.opcodes, List.mem_cons, List.not_mem_nil, or_false] at hmem <;> omega

/-- When byte `k` and those after it are zero, so are the bits they make up. -/
theorem Word40.low_bytes_eq_zero {d : Word40} (k : Nat) (h : ∀ j, k ≤ j → j ≤ 4 → d.byte j = 0#8) :
    d.extractLsb' 0 (8 * (5 - k)) = 0#_ := by
  refine BitVec.eq_of_getLsbD_eq fun i hi => ?_
  have hbyte := Word40.getLsbD_byte d (4 - i / 8) (i % 8) (Nat.mod_lt _ (by decide))
  rw [h _ (by omega) (by omega), show 32 - 8 * (4 - i / 8) + i % 8 = i by omega] at hbyte
  simpa [hi] using hbyte.symm

/-- R98: a descriptor that spells no operation is refused. -/
theorem step_refused_of_ne_encode {s : Machine.State} {d : Word40} {rest : List Word40} (hs : s.schedule = d :: rest)
    (hd : ∀ i : Instr, i.isOperation = true → d ≠ encode i) : Machine.step s = .refused .unknownDescriptor := by
  cases h : decode d with
  | error f => simp only [Machine.step, Machine.fetch_cons hs, h]
  | ok i =>
    obtain ⟨hi, henc⟩ := decode_ok_iff.1 h
    exact absurd henc.symm (hd i hi)

/-- Settles O5: were the descriptor the words of an operation, its opcode would be one of that operation's format, and its unused
bytes zero. -/
theorem unknownDescriptorIsRefused : Obligations.UnknownDescriptorIsRefused := by
  rintro s d rest _ hs rfl
  have hcode {i : Instr} (hi : i.isOperation = true) (hd : d = encode i) : (d.byte 0).toNat ∈ i.format.opcodes :=
    hd ▸ opcode_mem_opcodes hi
  refine ⟨fun hop => step_refused_of_ne_encode hs fun i hi hd => ?_,
    fun hop hne => step_refused_of_ne_encode hs fun i hi hd => ?_,
    fun hop hne => step_refused_of_ne_encode hs fun i hi hd => ?_⟩
  · exact Format.not_mem_opcodes hop _ (hcode hi hd)
  · obtain ⟨ha, hb, hc, he⟩ := hd ▸ (encode_unused_bytes i).1 (Format.eq_of_mem_opcodes (hcode hi hd) hop)
    exact hne (Word40.low_bytes_eq_zero 1 fun k hk hk4 => by interval_cases k <;> assumption)
  · obtain ⟨hb, hc, he⟩ := hd ▸ (encode_unused_bytes i).2 (Format.eq_of_mem_opcodes (hcode hi hd) hop)
    exact hne (Word40.low_bytes_eq_zero 2 fun k hk hk4 => by interval_cases k <;> assumption)

end Sys2Proof
end

section
/-!
The fields of a wire frame: the checksum (R92, R93) and the acknowledge bit (R91).
-/
namespace Sys2Proof

/-! ### Checksum -/

theorem Packet.valid_iff {p : Packet} : p.valid = true ↔ p.command ^^^ p.param1 ^^^ p.param2 ^^^ p.param3 = p.checksum :=
  beq_iff_eq

@[simp] theorem Packet.valid_ofPayload (a b c e : Byte) : (Packet.ofPayload a b c e).valid = true := Packet.valid_iff.2 rfl

theorem decodeFrame_ofWord_iff {f : Word40} : decodeFrame f = .ok (.frame (Packet.ofWord f)) ↔ (Packet.ofWord f).valid = true := by
  rw [decodeFrame_ok_iff, and_iff_left rfl]

/-- Settles O7: exclusive OR acts bit by bit, and a byte cancels itself. -/
theorem checksumIsBitwiseParity : Obligations.ChecksumIsBitwiseParity := by
  refine fun a b c e i _ => ⟨?_, Packet.valid_ofPayload a b c e, ?_⟩
  · simp only [cks, BitVec.getLsbD_xor]
  · have hself : cks a b c e ^^^ cks a b c e = 0#8 := BitVec.xor_self
    simpa only [cks, BitVec.xor_assoc] using hself

/-! ### The acknowledge bit -/

theorem getLsbD_ackMask : ∀ i < 8, Config.ackMask.getLsbD i = decide (i = 7) := by decide

theorem getLsbD_codeMask : ∀ i < 8, Config.codeMask.getLsbD i = decide (i < 7) := by decide

theorem ack_eq_getLsbD (x : Byte) : ack x = x.getLsbD 7 := by
  have hmask : x &&& Config.ackMask = if x.getLsbD 7 then BitVec.twoPow 8 7 else 0#8 := BitVec.and_twoPow x 7
  rw [ack, hmask]
  cases x.getLsbD 7 <;> rfl

theorem getLsbD_code (x : Byte) {i : Nat} (hi : i < 8) : (code x).getLsbD i = (decide (i < 7) && x.getLsbD i) := by
  rw [code, BitVec.getLsbD_and, getLsbD_codeMask i hi, Bool.and_comm]

theorem getLsbD_withAck (c : Byte) (a : Bool) {i : Nat} (hi : i < 8) :
    (withAck c a).getLsbD i = if i < 7 then c.getLsbD i else a := by
  have hseven : i = 7 ↔ ¬i < 7 := by omega
  cases a with
  | false =>
    show (c &&& Config.codeMask).getLsbD i = _
    rw [BitVec.getLsbD_and, getLsbD_codeMask i hi]
    split <;> simp [*]
  | true =>
    show (c ||| Config.ackMask).getLsbD i = _
    rw [BitVec.getLsbD_or, getLsbD_ackMask i hi]
    split <;> simp [*]

/-- The code field of a frame is bits 38:32 (R90). -/
theorem Word40.extractLsb'_byte_zero (f : Word40) : (f.byte 0).extractLsb' 0 7 = f.extractLsb' 32 7 := by
  refine BitVec.eq_of_getLsbD_eq fun i hi => ?_
  simp only [BitVec.getLsbD_extractLsb', hi, Nat.zero_add, Word40.getLsbD_byte f 0 i (by omega)]

theorem code_eq_extractLsb' (x : Byte) : code x = (x.extractLsb' 0 7).setWidth 8 := by
  refine BitVec.eq_of_getLsbD_eq fun i hi => ?_
  rw [getLsbD_code x hi, BitVec.getLsbD_setWidth, BitVec.getLsbD_extractLsb', Nat.zero_add, decide_eq_true hi, Bool.true_and]

theorem withAck_setWidth (c : BitVec 7) (a : Bool) : withAck (c.setWidth 8) a = BitVec.ofBool a ++ c := by
  refine BitVec.eq_of_getLsbD_eq fun i hi => ?_
  rw [getLsbD_withAck _ _ hi, BitVec.getLsbD_append, BitVec.getLsbD_setWidth, decide_eq_true hi, Bool.true_and]
  refine ite_congr rfl (fun _ => rfl) fun hge => ?_
  rw [show i - 7 = 0 by omega]
  cases a <;> rfl

theorem withAck_code_ack (x : Byte) : withAck (code x) (ack x) = x := by
  refine BitVec.eq_of_getLsbD_eq fun i hi => ?_
  rw [getLsbD_withAck _ _ hi, getLsbD_code x hi, ack_eq_getLsbD]
  obtain hlt | rfl : i < 7 ∨ i = 7 := by omega
  · rw [if_pos hlt, decide_eq_true hlt, Bool.true_and]
  · rfl

/-- Settles O8. The checksum clause is that exclusive OR is associative and commutative. -/
theorem acknowledgeBitFunctions : Obligations.AcknowledgeBitFunctions := by
  refine ⟨fun x => ⟨ack_eq_getLsbD x, code_eq_extractLsb' x, withAck_code_ack x⟩, withAck_setWidth, fun x b c e => ?_⟩
  simp only [cks]
  ac_rfl

/-- Settles O6: a word is its five bytes; the checksum is the one byte equal to the exclusive OR of the payload. -/
theorem frameLayoutAndValidity : Obligations.FrameLayoutAndValidity := by
  refine fun f => ⟨(Word40.pack_byte f).symm, ?_, ?_, ?_, ?_, fun a b c e => ?_⟩
  · exact (ack_eq_getLsbD _).trans (Word40.getLsbD_byte f 0 7 (by decide))
  · rw [code_eq_extractLsb']
    exact congrArg (·.setWidth 8) (Word40.extractLsb'_byte_zero f)
  · rw [decodeFrame_ofWord_iff, Packet.valid_iff, eq_comm]
    rfl
  · rw [decodeFrame_ofWord_iff, Packet.valid_iff, BitVec.xor_eq_zero_iff]
    rfl
  · exact ⟨cks a b c e, Packet.valid_ofPayload a b c e, fun k hk => (Packet.valid_iff.1 hk).symm⟩

end Sys2Proof
end

section
/-!
The pseudo-operations of R101: what each operation in them does when its guard is true, and the run of all of them.
-/
namespace Sys2Proof
namespace Machine

/-! ### One step, its guard being true -/

/-- R151. -/
theorem exec_lineRx {s : State} (a : Byte) (hst : s.stInited = true) (hready : s.rxReady = false) :
    exec (.lineRx a) s = .next { s with rxd := a, rxReady := true, lineIn := s.lineIn ++ [a], result := .none } := by
  simp [exec, execLineRx, needSt_next, hst, hready, done_next]

/-- R152. -/
theorem exec_rxIsr {s : State} (hst : s.stInited = true) (hirq : s.irqRx = true) :
    exec .rxIsr s = .next { s with rxSlot := s.rxd, rxReady := false, rxSig := s.rxSig + 1, result := .none } := by
  simp only [exec, execRxIsr, needSt_next, takeInterrupt_next]
  exact ⟨hst, .inl ⟨hirq, rfl⟩⟩

/-- R153. -/
theorem exec_rxWorker {s : State} (hst : s.stInited = true) (hsig : s.rxSig = 1) (hroom : s.inb.used < s.cfg.n)
    (hend : s.inb.endIdx < s.cfg.n) :
    exec .rxWorker s = .next { s with inb := s.inb.afterPut s.cfg.n s.rxSlot, rxSig := 0, result := .none } := by
  have hput : s.putOn .inb s.rxSlot = .ok { s with inb := s.inb.afterPut s.cfg.n s.rxSlot } := putOn_ok.2 ⟨hend, rfl⟩
  simp only [exec, execRxWorker, needSt_next, if_pos (canDeliver_iff.2 ⟨hsig, hroom⟩), hput, finish_next]
  exact ⟨hst, _, rfl, by simp [State.waitRx, hsig]⟩

/-- R156. -/
theorem exec_txIsr {s : State} (hst : s.stInited = true) (hirq : s.irqTx = true) :
    exec .txIsr s = .next { s with txSig := s.txSig + 1, result := .none } := by
  simp only [exec, execTxIsr, needSt_next, takeInterrupt_next]
  exact ⟨hst, .inl ⟨hirq, rfl⟩⟩

/-- R157, with a byte to send. -/
theorem exec_txWorker {s : State} {v : Byte} (hst : s.stInited = true) (hsig : s.txSig = 1) (hdata : 0 < s.out.used)
    (hstart : s.out.start < s.cfg.n) (hv : memGet s.out.mem s.out.start = some v) :
    exec .txWorker s =
      .next { s with out := s.out.afterGet s.cfg.n, txd := v, txReady := false, txSig := 0, result := .none } := by
  have hget : s.getFrom .out = .ok (v, { s with out := s.out.afterGet s.cfg.n }) := getFrom_ok.2 ⟨hstart, hv, rfl⟩
  have hsend : s.hasData .out = true := hasData_iff.2 hdata
  simp only [exec, execTxWorker, needSt_next, if_pos (canServe_iff.2 hsig), if_pos hsend, hget, finish_next]
  exact ⟨hst, _, rfl, by simp [State.waitTx, State.writeTxd, hsig]⟩

/-- R158. -/
theorem exec_lineTx {s : State} (hst : s.stInited = true) (hready : s.txReady = false) :
    exec .lineTx s = .next { s with lineOut := s.lineOut ++ [s.txd], txReady := true, result := .byte s.txd } := by
  simp [exec, execLineTx, needSt_next, hst, hready, done_next]

/-- R195. -/
theorem exec_fpPut {s : State} (a b c e : Byte) (hfp : s.fpInited = true) (hidle : s.putIdx = 5) :
    exec (.fpPut a b c e) s = .next { s with putBuf := Packet.ofPayload a b c e, putIdx := 0, result := .none } := by
  simp [exec, execFpPut, needFp_next, hfp, hidle, done_next]

/-- R196. -/
theorem exec_fpPutStep {s : State} (hfp : s.fpInited = true) (hidx : s.putIdx < 5) (hroom : s.out.used < s.cfg.n)
    (hend : s.out.endIdx < s.cfg.n) :
    exec .fpPutStep s = .next
      { s with
        out := s.out.afterPut s.cfg.n (packetByte s.putBuf s.putIdx), txIe := true, putIdx := s.putIdx + 1
        result := .none } := by
  have hput : s.submit (packetByte s.putBuf s.putIdx) =
      .ok { s with out := s.out.afterPut s.cfg.n (packetByte s.putBuf s.putIdx), txIe := true } := submit_ok.2 ⟨hend, rfl⟩
  simp only [exec, execFpPutStep, needFp_next, if_pos (canPush_iff.2 ⟨hidx, hroom⟩), hput, finish_next]
  exact ⟨hfp, _, rfl, rfl⟩

/-! ### The runs -/

/-- Settles O33: the byte goes through `RXD` and `rx_slot` to the end of `in`. -/
theorem rxByteCarriesOneByteIn : Obligations.RxByteCarriesOneByteIn := by
  intro s a hs hst hready hie hsig hroom
  have hgood : s.inb.good s.cfg.n := hs.chan_good .inb
  have ⟨_, _, hend, _⟩ := hgood
  refine ⟨_, runOps_cons.2 ⟨_, exec_lineRx a hst hready, runOps_cons.2 ⟨_, exec_rxIsr hst (irqRx_iff.2 ⟨rfl, hie, hsig⟩),
    runOps_cons.2 ⟨_, exec_rxWorker hst ?_ hroom hend, rfl⟩⟩⟩, ?_, rfl, rfl, rfl, rfl⟩
  · show s.rxSig + 1 = 1
    rw [hsig]
  · exact hgood.contents_afterPut hroom a

/-- Settles O34: the worker takes the oldest byte of `out` into `TXD`, and the line sends it. -/
theorem txByteCarriesOneByteOut : Obligations.TxByteCarriesOneByteOut := by
  intro s v rest hs hst hready hie hsig hheld
  have hgood : s.out.good s.cfg.n := hs.chan_good .out
  have hdata : 0 < s.out.used := by
    rw [← hgood.length_contents, hheld]
    exact Nat.succ_pos _
  obtain ⟨x, hx⟩ := hgood.exists_memGet_start hdata
  obtain ⟨rfl, hrest⟩ := List.cons.inj (hheld.symm.trans (hgood.contents_eq_cons hdata hx))
  obtain ⟨-, hstart, -⟩ := hgood
  refine ⟨_, runOps_cons.2 ⟨_, exec_txIsr hst (irqTx_iff.2 ⟨hready, hie, hsig⟩),
    runOps_cons.2 ⟨_, exec_txWorker hst ?_ hdata hstart hx, runOps_cons.2 ⟨_, exec_lineTx hst rfl, rfl⟩⟩⟩,
    hrest.symm, rfl, rfl, rfl, rfl, hie, rfl⟩
  show s.txSig + 1 = 1
  rw [hsig]

/-! ### The send sequencer -/

theorem drop_bytes_eq_cons (p : Packet) {k : Nat} (hk : k < 5) : p.bytes.drop k = packetByte p k :: p.bytes.drop (k + 1) := by
  interval_cases k <;> rfl

/-- With room in `out` for the bytes not yet submitted, the steps the sequencer still has to take submit them (R196). -/
theorem runOps_replicate_fpPutStep (k : Nat) {s : State} (hfp : s.fpInited = true) (hgood : s.out.good s.cfg.n)
    (hidx : s.putIdx + (k + 1) = 5) (hroom : s.out.used + (k + 1) ≤ s.cfg.n) :
    ∃ c : Channel, c.contents s.cfg.n = s.out.contents s.cfg.n ++ s.putBuf.bytes.drop s.putIdx ∧
      runOps (List.replicate (k + 1) .fpPutStep) s = .next { s with out := c, txIe := true, putIdx := 5, result := .none } := by
  have hroom1 : s.out.used < s.cfg.n := by omega
  have hlt : s.putIdx < 5 := by omega
  have ⟨_, _, hend, _⟩ := hgood
  have hput := hgood.contents_afterPut hroom1 (packetByte s.putBuf s.putIdx)
  have hstep := exec_fpPutStep hfp hlt hroom1 hend
  match k, hidx, hroom with
  | 0, hidx, _ =>
    have hlast : s.putIdx = 4 := by omega
    refine ⟨_, hput.trans ?_, runOps_cons.2 ⟨_, hstep, ?_⟩⟩ <;>
      rw [hlast] <;> rfl
  | k + 1, hidx, hroom =>
    have hidx' : s.putIdx + 1 + (k + 1) = 5 := by omega
    have hroom' : s.out.used + 1 + (k + 1) ≤ s.cfg.n := by omega
    obtain ⟨c, hc, hrun⟩ := runOps_replicate_fpPutStep k
      (s := { s with out := s.out.afterPut s.cfg.n (packetByte s.putBuf s.putIdx), txIe := true, putIdx := s.putIdx + 1
                     result := .none })
      hfp (hgood.afterPut hroom1 _) hidx' hroom'
    refine ⟨c, ?_, runOps_cons.2 ⟨_, hstep, hrun⟩⟩
    rw [hc, hput, drop_bytes_eq_cons _ hlt, List.append_assoc, List.singleton_append]

/-- Settles O45: `FP_PUT` loads the sequencer at index 0, from which five steps submit the whole send buffer. -/
theorem fpSendSubmitsTheFrame : Obligations.FpSendSubmitsTheFrame := by
  intro s a b c e hs hfp hidle hroom
  obtain ⟨out, hout, hrun⟩ := runOps_replicate_fpPutStep 4
    (s := { s with putBuf := Packet.ofPayload a b c e, putIdx := 0, result := .none }) hfp (hs.chan_good .out) rfl hroom
  refine ⟨_, runOps_cons.2 ⟨_, exec_fpPut a b c e hfp hidle, hrun⟩, hout, ?_, rfl, rfl, rfl⟩
  exact (congrArg (_ ++ ·) hout).trans (List.append_assoc ..).symm

end Machine
end Sys2Proof
end

section
/-!
The channel operations (40_bytechannel.md R120 to R123): what each does in either arm of its guard, what it leaves unchanged, and the
runs of puts and gets of R128 and R129.
-/
namespace Sys2Proof
namespace Machine

/-! ### The two guarded bodies -/

section
variable {s t : State} {h : Chan} {a v : Byte}

theorem State.chan_setChan_withResult (s : State) (h : Chan) (c : Channel) (r : Result) :
    State.chan { s.setChan h c with result := r } h = c :=
  State.chan_setChan s h c

/-- Writing back the channel read leaves only the result marker changed. -/
theorem State.setChan_chan_withResult (s : State) (h : Chan) (r : Result) :
    { s.setChan h (s.chan h) with result := r } = { s with result := r } := by
  cases h <;> rfl

theorem guardedPut_of_room (hroom : (s.chan h).used < s.cfg.n) (hend : (s.chan h).endIdx < s.cfg.n) (r q : Result) :
    (if s.hasRoom h then finish (s.putOn h a) r else s.done q) =
      .next { s.setChan h ((s.chan h).afterPut s.cfg.n a) with result := r } := by
  rw [if_pos (hasRoom_iff.2 hroom), finish_next]
  exact ⟨_, putOn_ok.2 ⟨hend, rfl⟩, rfl⟩

theorem guardedPut_of_full (hfull : s.cfg.n ≤ (s.chan h).used) (r q : Result) :
    (if s.hasRoom h then finish (s.putOn h a) r else s.done q) = .next { s with result := q } := by
  rw [hasRoom_false_iff.2 hfull]
  rfl

theorem guardedGet_of_data (hdata : 0 < (s.chan h).used) (hstart : (s.chan h).start < s.cfg.n)
    (hv : memGet (s.chan h).mem (s.chan h).start = some v) (r : Byte → Result) (q : Result) :
    (if s.hasData h then finishByte (s.getFrom h) r else s.done q) =
      .next { s.setChan h ((s.chan h).afterGet s.cfg.n) with result := r v } := by
  rw [if_pos (hasData_iff.2 hdata), finishByte_next]
  exact ⟨v, _, getFrom_ok.2 ⟨hstart, hv, rfl⟩, rfl⟩

theorem guardedGet_of_empty (hempty : (s.chan h).used = 0) (r : Byte → Result) (q : Result) :
    (if s.hasData h then finishByte (s.getFrom h) r else s.done q) = .next { s with result := q } := by
  rw [hasData_false_iff.2 hempty]
  rfl

/-! ### One operation, by the arm of its guard -/

/-- R120, with room. -/
theorem exec_chPut_of_room (hst : s.stInited = true) (hroom : (s.chan h).used < s.cfg.n)
    (hend : (s.chan h).endIdx < s.cfg.n) :
    exec (.chPut h a) s = .next { s.setChan h ((s.chan h).afterPut s.cfg.n a) with result := .none } :=
  needSt_next.2 ⟨hst, guardedPut_of_room hroom hend .none .held⟩

/-- R120, full: the requester holds. -/
theorem exec_chPut_of_full (hst : s.stInited = true) (hfull : s.cfg.n ≤ (s.chan h).used) :
    exec (.chPut h a) s = .next { s with result := .held } :=
  needSt_next.2 ⟨hst, guardedPut_of_full hfull .none .held⟩

/-- R121, with a byte to take. -/
theorem exec_chGet_of_data (hst : s.stInited = true) (hdata : 0 < (s.chan h).used) (hstart : (s.chan h).start < s.cfg.n)
    (hv : memGet (s.chan h).mem (s.chan h).start = some v) :
    exec (.chGet h) s = .next { s.setChan h ((s.chan h).afterGet s.cfg.n) with result := .byte v } :=
  needSt_next.2 ⟨hst, guardedGet_of_data hdata hstart hv .byte .held⟩

/-- R121, empty: the requester holds. -/
theorem exec_chGet_of_empty (hst : s.stInited = true) (hempty : (s.chan h).used = 0) :
    exec (.chGet h) s = .next { s with result := .held } :=
  needSt_next.2 ⟨hst, guardedGet_of_empty hempty .byte .held⟩

/-! ### What a guarded body leaves unchanged -/

/-- A guarded put changes the selected channel only, and of it neither `start` nor a slot other than the one at `end`. -/
theorem guardedPut_frame {r q : Result} (hx : (if s.hasRoom h then finish (s.putOn h a) r else s.done q) = .next t) :
    t = { s.setChan h (t.chan h) with result := t.result } ∧ (t.chan h).start = (s.chan h).start ∧
      ∀ j, j ≠ (s.chan h).endIdx → memGet (t.chan h).mem j = memGet (s.chan h).mem j := by
  obtain ⟨-, -, rfl⟩ | ⟨-, rfl⟩ := put_next hx
  · rw [State.chan_setChan_withResult]
    exact ⟨rfl, rfl, fun j hj => memGet_memSet_of_ne _ _ hj⟩
  · exact ⟨(State.setChan_chan_withResult s h q).symm, rfl, fun _ _ => rfl⟩

/-- A guarded get changes `start` and `used` of the selected channel only. -/
theorem guardedGet_frame {r : Byte → Result} {q : Result}
    (hx : (if s.hasData h then finishByte (s.getFrom h) r else s.done q) = .next t) :
    t = { s.setChan h { s.chan h with start := (t.chan h).start, used := (t.chan h).used } with result := t.result } := by
  obtain ⟨_, -, -, -, rfl⟩ | ⟨-, rfl⟩ := get_next hx
  · rw [State.chan_setChan_withResult]
    rfl
  · exact (State.setChan_chan_withResult s h q).symm

/-! ### The bytes a channel holds, put by put and get by get -/

/-- A put with room appends its byte (R72, R120). -/
theorem chPut_appends (hst : s.stInited = true) (hgood : (s.chan h).good s.cfg.n) (hroom : (s.chan h).used < s.cfg.n) (a : Byte) :
    ∃ t, exec (.chPut h a) s = .next t ∧ t.cfg = s.cfg ∧ t.stInited = true ∧ (t.chan h).good s.cfg.n ∧
      (t.chan h).used = (s.chan h).used + 1 ∧ (t.chan h).contents s.cfg.n = (s.chan h).contents s.cfg.n ++ [a] := by
  have ⟨_, _, hend, _⟩ := hgood
  refine ⟨_, exec_chPut_of_room hst hroom hend, ?_⟩
  rw [State.chan_setChan_withResult]
  exact ⟨State.setChan_cfg .., (State.setChan_stInited ..).trans hst, hgood.afterPut hroom a, rfl, hgood.contents_afterPut hroom a⟩

/-- A get from a channel that holds bytes returns the first of them (R72, R121). -/
theorem chGet_takes_first (hst : s.stInited = true) (hgood : (s.chan h).good s.cfg.n) (hdata : 0 < (s.chan h).used) :
    ∃ v t, exec (.chGet h) s = .next t ∧ t.result = .byte v ∧ t.cfg = s.cfg ∧ t.stInited = true ∧ (t.chan h).good s.cfg.n ∧
      (t.chan h).used = (s.chan h).used - 1 ∧ (s.chan h).contents s.cfg.n = v :: (t.chan h).contents s.cfg.n := by
  obtain ⟨v, hv⟩ := hgood.exists_memGet_start hdata
  have ⟨_, hstart, _⟩ := hgood
  refine ⟨v, _, exec_chGet_of_data hst hdata hstart hv, ?_⟩
  rw [State.chan_setChan_withResult]
  exact ⟨rfl, State.setChan_cfg .., (State.setChan_stInited ..).trans hst, hgood.afterGet hdata, rfl,
    hgood.contents_eq_cons hdata hv⟩

/-! ### Runs of puts and gets -/

theorem runOps_append {is js : List Instr} :
    runOps (is ++ js) s = .next t ↔ ∃ u, runOps is s = .next u ∧ runOps js u = .next t := by
  induction is generalizing s with
  | nil => simp [runOps]
  | cons i is ih =>
    rw [List.cons_append]
    simp only [runOps_cons, ih]
    constructor
    · rintro ⟨u, hu, w, hw, ht⟩
      exact ⟨w, ⟨u, hu, hw⟩, ht⟩
    · rintro ⟨w, ⟨u, hu, hw⟩, ht⟩
      exact ⟨u, hu, w, hw, ht⟩

/-- Puts into a channel with room for all of them. -/
theorem runOps_map_chPut (bs : List Byte) (hst : s.stInited = true) (hgood : (s.chan h).good s.cfg.n)
    (hroom : (s.chan h).used + bs.length ≤ s.cfg.n) :
    ∃ t, runOps (bs.map (.chPut h)) s = .next t ∧ t.cfg = s.cfg ∧ t.stInited = true ∧ (t.chan h).good s.cfg.n ∧
      (t.chan h).contents s.cfg.n = (s.chan h).contents s.cfg.n ++ bs := by
  induction bs generalizing s with
  | nil => exact ⟨s, rfl, rfl, hst, hgood, (List.append_nil _).symm⟩
  | cons b bs ih =>
    rw [List.length_cons] at hroom
    obtain ⟨u, hput, hcfg, hstu, hgoodu, husedu, hcontu⟩ := chPut_appends hst hgood (by omega) b
    rw [← hcfg] at hgoodu
    obtain ⟨t, hrun, hcfgt, hstt, hgoodt, hcontt⟩ := ih hstu hgoodu (by rw [hcfg]; omega)
    rw [hcfg] at hcfgt hgoodt hcontt
    refine ⟨t, runOps_cons.2 ⟨u, hput, hrun⟩, hcfgt, hstt, hgoodt, ?_⟩
    rw [hcontt, hcontu, List.append_assoc, List.singleton_append]

/-- The last of `j + 1` gets returns the byte held at place `j`. -/
theorem runOps_replicate_chGet (j : Nat) (hst : s.stInited = true) (hgood : (s.chan h).good s.cfg.n)
    (hv : ((s.chan h).contents s.cfg.n)[j]? = some v) :
    ∃ t, runOps (List.replicate (j + 1) (.chGet h)) s = .next t ∧ t.result = .byte v ∧
      (t.chan h).used = (s.chan h).used - (j + 1) := by
  induction j generalizing s with
  | zero =>
    have hdata : 0 < (s.chan h).used := hgood.length_contents ▸ (List.getElem?_eq_some_iff.1 hv).1
    obtain ⟨x, t, hget, hres, -, -, -, hused, hcons⟩ := chGet_takes_first hst hgood hdata
    rw [hcons, List.getElem?_cons_zero, Option.some.injEq] at hv
    exact ⟨t, runOps_cons.2 ⟨t, hget, rfl⟩, hv ▸ hres, hused⟩
  | succ j ih =>
    have hdata : j + 1 < (s.chan h).used := hgood.length_contents ▸ (List.getElem?_eq_some_iff.1 hv).1
    obtain ⟨x, u, hget, -, hcfg, hstu, hgoodu, hused, hcons⟩ := chGet_takes_first hst hgood (by omega)
    rw [hcons, List.getElem?_cons_succ, ← hcfg] at hv
    obtain ⟨t, hrun, hres, husedt⟩ := ih hstu (hcfg ▸ hgoodu) hv
    exact ⟨t, runOps_cons.2 ⟨u, hget, hrun⟩, hres, by omega⟩

end

/-! ### The obligations -/

/-- Settles O15: the put writes slot `end` of the backing store. -/
theorem chPutStoresOrHolds : Obligations.ChPutStoresOrHolds := by
  refine ⟨fun a => ⟨decode_encode (i := .chPut .inb a) rfl, decode_encode (i := .chPut .out a) rfl⟩,
    fun s h a hst => ⟨fun hroom hend => ?_, fun hfull => ?_⟩⟩
  · exact ⟨memSet (s.chan h).mem (s.chan h).endIdx a, exec_chPut_of_room hst hroom hend, memGet_memSet_self _ _ _,
      fun j hj => memGet_memSet_of_ne _ _ hj⟩
  · exact ⟨_, exec_chPut_of_full hst hfull⟩

/-- Settles O16: the get reads slot `start` and writes no slot. -/
theorem chGetTakesOldestOrHolds : Obligations.ChGetTakesOldestOrHolds := by
  refine ⟨decode_encode (i := .chGet .inb) rfl, decode_encode (i := .chGet .out) rfl,
    fun s h hst => ⟨fun v hdata hstart hv => ?_, fun hempty => ?_⟩⟩
  · exact exec_chGet_of_data hst hdata hstart hv
  · exact ⟨_, exec_chGet_of_empty hst hempty⟩

/-- Settles O17: the body of `CH_PUT`, but the other arm answers ok = 0. -/
theorem chTryputNeverHolds : Obligations.ChTryputNeverHolds := by
  refine ⟨fun a => ⟨decode_encode (i := .chTryput .inb a) rfl, decode_encode (i := .chTryput .out a) rfl⟩,
    fun s h a htry hst => ⟨fun hroom hend => ?_, fun hfull => ?_⟩⟩
  · exact ⟨memSet (s.chan h).mem (s.chan h).endIdx a,
      needTry_next.2 ⟨htry, needSt_next.2 ⟨hst, guardedPut_of_room hroom hend (.ok true) (.ok false)⟩⟩,
      memGet_memSet_self _ _ _, fun j hj => memGet_memSet_of_ne _ _ hj⟩
  · exact needTry_next.2 ⟨htry, needSt_next.2 ⟨hst, guardedPut_of_full hfull (.ok true) (.ok false)⟩⟩

/-- Settles O18: the body of `CH_GET`, but the other arm answers ok = 0. -/
theorem chTrygetNeverHolds : Obligations.ChTrygetNeverHolds := by
  refine ⟨decode_encode (i := .chTryget .inb) rfl, decode_encode (i := .chTryget .out) rfl,
    fun s h htry hst => ⟨fun v hdata hstart hv => ?_, fun hempty => ?_⟩⟩
  · exact needTry_next.2 ⟨htry, needSt_next.2 ⟨hst, guardedGet_of_data hdata hstart hv .okByte (.ok false)⟩⟩
  · exact needTry_next.2 ⟨htry, needSt_next.2 ⟨hst, guardedGet_of_empty hempty .okByte (.ok false)⟩⟩

/-- Settles O46: the blocking and the non-blocking form have the same guarded body. -/
theorem frameOfChannelOperations : Obligations.FrameOfChannelOperations := by
  refine fun s t h a => ⟨?_, ?_⟩
  · rintro (hx | hx)
    · obtain ⟨-, hbody⟩ := needSt_next.1 hx
      exact guardedPut_frame hbody
    · obtain ⟨-, hbody⟩ := needTry_next.1 hx
      exact guardedPut_frame (needSt_next.1 hbody).2
  · rintro (hx | hx)
    · obtain ⟨-, hbody⟩ := needSt_next.1 hx
      exact guardedGet_frame hbody
    · obtain ⟨-, hbody⟩ := needTry_next.1 hx
      exact guardedGet_frame (needSt_next.1 hbody).2

/-- Settles O21: the get leaves one slot free, which the put takes. -/
theorem heldPutCompletesAfterAGet : Obligations.HeldPutCompletesAfterAGet := by
  intro s h a hs hst hfull
  have hgood : (s.chan h).good s.cfg.n := hs.chan_good h
  have ⟨_, hstart, _⟩ := hgood
  obtain ⟨v, t, hget, hres, hcfg, hstt, hgoodt, husedt, hcons⟩ := chGet_takes_first hst hgood (by omega)
  rw [← hcfg] at hgoodt
  obtain ⟨u, hput, -, -, -, husedu, hcontents⟩ := chPut_appends hstt hgoodt (by rw [hcfg]; omega) a
  rw [hcfg] at hcontents
  exact ⟨⟨_, exec_chPut_of_full hst hfull.ge⟩, v, _, t, u, hcons, hget, hres, hput, by omega, hcontents⟩

/-- Settles O20: after the puts the channel holds their bytes in order, and the gets take them from the front. -/
theorem bytesComeOutInTheOrderPut : Obligations.BytesComeOutInTheOrderPut := by
  intro s h bs j v hs hst hempty hlen hv
  obtain ⟨u, hputs, hcfg, hstu, hgood, hcont⟩ := runOps_map_chPut bs hst (hs.chan_good h) (by omega)
  have hbytes : (u.chan h).contents s.cfg.n = bs := by
    rw [hcont, List.eq_nil_of_length_eq_zero ((hs.chan_good h).length_contents.trans hempty), List.nil_append]
  have hused : (u.chan h).used = bs.length := by rw [← hgood.length_contents, hbytes]
  rw [← hbytes, ← hcfg] at hv
  obtain ⟨t, hgets, hres, husedt⟩ := runOps_replicate_chGet j hstu (hcfg ▸ hgood) hv
  exact ⟨t, runOps_append.2 ⟨u, hputs, hgets⟩, hres, hused ▸ husedt⟩

end Machine
end Sys2Proof
end

section
/-!
The SerialTransport, one operation at a time (41_serialtransport.md R150 to R158): what each does in every arm of its guard, and what
it leaves unchanged. The arms in which the worker, handler or line step runs stand with the pseudo-operations of R101.
-/
namespace Sys2Proof
namespace Machine

section
variable {s : State}

/-! ### One operation, by the arm of its guard -/

/-- R151: the previous byte was never read. -/
theorem exec_lineRx_of_ready (a : Byte) (hst : s.stInited = true) (hready : s.rxReady = true) :
    exec (.lineRx a) s = .fault (.lineOverrun a) := by
  simp only [exec, execLineRx, needSt_fault, if_pos hready]
  exact ⟨hst, trivial⟩

/-- R152, not requested. -/
theorem exec_rxIsr_of_no_request (hst : s.stInited = true) (hirq : s.irqRx = false) :
    exec .rxIsr s = .next { s with result := .held } :=
  needSt_next.2 ⟨hst, takeInterrupt_next.2 (.inr ⟨hirq, rfl⟩)⟩

/-- R153, with no signal or `in` full. -/
theorem exec_rxWorker_of_cannot_deliver (hst : s.stInited = true) (hguard : ¬(s.rxSig = 1 ∧ s.inb.used < s.cfg.n)) :
    exec .rxWorker s = .next { s with result := .held } := by
  simp only [exec, execRxWorker, needSt_next, canDeliver_false_iff.2 hguard]
  exact ⟨hst, rfl⟩

/-- R155, with room. -/
theorem exec_stOut_of_room (a : Byte) (hst : s.stInited = true) (hroom : s.out.used < s.cfg.n) (hend : s.out.endIdx < s.cfg.n) :
    exec (.stOut a) s = .next { s with out := s.out.afterPut s.cfg.n a, txIe := true, result := .none } := by
  have hguard : s.hasRoom .out = true := hasRoom_iff.2 hroom
  simp only [exec, execStOut, needSt_next, if_pos hguard, finish_next]
  exact ⟨hst, _, submit_ok.2 ⟨hend, rfl⟩, rfl⟩

/-- R155, full. -/
theorem exec_stOut_of_full (a : Byte) (hst : s.stInited = true) (hfull : s.cfg.n ≤ s.out.used) :
    exec (.stOut a) s = .next { s with result := .held } := by
  have hguard : s.hasRoom .out = false := hasRoom_false_iff.2 hfull
  simp only [exec, execStOut, needSt_next, hguard]
  exact ⟨hst, rfl⟩

/-- R156, not requested. -/
theorem exec_txIsr_of_no_request (hst : s.stInited = true) (hirq : s.irqTx = false) :
    exec .txIsr s = .next { s with result := .held } :=
  needSt_next.2 ⟨hst, takeInterrupt_next.2 (.inr ⟨hirq, rfl⟩)⟩

/-- R157, with nothing to send. -/
theorem exec_txWorker_of_empty (hst : s.stInited = true) (hsig : s.txSig = 1) (hempty : s.out.used = 0) :
    exec .txWorker s = .next { s with txIe := false, txSig := 0, result := .none } := by
  have hguard : s.hasData .out = false := hasData_false_iff.2 hempty
  simp only [exec, execTxWorker, needSt_next, canServe_iff.2 hsig, hguard]
  exact ⟨hst, by simp [State.waitTx, hsig, done_next]⟩

/-- R157, with no signal. -/
theorem exec_txWorker_of_no_signal (hst : s.stInited = true) (hsig : s.txSig ≠ 1) :
    exec .txWorker s = .next { s with result := .held } := by
  simp only [exec, execTxWorker, needSt_next, canServe_false_iff.2 hsig]
  exact ⟨hst, rfl⟩

/-- R158, with nothing in flight. -/
theorem exec_lineTx_of_ready (hst : s.stInited = true) (hready : s.txReady = true) :
    exec .lineTx s = .next { s with result := .held } := by
  simp only [exec, execLineTx, needSt_next, if_pos hready]
  exact ⟨hst, rfl⟩

end

/-! ### The obligations -/

/-- Settles O12. -/
theorem stInitCreatesTheTransport : Obligations.StInitCreatesTheTransport := by
  refine ⟨decode_encode (i := .stInit) rfl, fun s => ⟨fun hst => ?_, fun hst => ?_⟩⟩
  · simp only [exec, execStInit, hst]
    rfl
  · simp only [exec, execStInit, if_pos hst]

/-- Settles O22. -/
theorem lineRxDeliversOrOverruns : Obligations.LineRxDeliversOrOverruns :=
  ⟨fun a => decode_encode (i := .lineRx a) rfl, fun _ a hst => ⟨exec_lineRx a hst, exec_lineRx_of_ready a hst⟩⟩

/-- Settles O23: the guard is the request `irq_rx`, and a post on a signal at 0 raises it to 1. -/
theorem rxIsrCapturesOneByte : Obligations.RxIsrCapturesOneByte := by
  refine ⟨decode_encode (i := .rxIsr) rfl, fun s hst => ⟨fun hready hie hsig => ?_, fun hguard => ?_⟩⟩
  · rw [exec_rxIsr hst (irqRx_iff.2 ⟨hready, hie, hsig⟩), hsig]
  · exact ⟨_, exec_rxIsr_of_no_request hst (Bool.eq_false_iff.2 (mt irqRx_iff.1 hguard))⟩

/-- Settles O24: the put writes slot `end` of `in`. -/
theorem rxWorkerDeliversTheSlot : Obligations.RxWorkerDeliversTheSlot := by
  refine ⟨decode_encode (i := .rxWorker) rfl, fun s hst => ⟨fun hsig hroom hend => ?_, fun hguard => ?_⟩⟩
  · exact ⟨memSet s.inb.mem s.inb.endIdx s.rxSlot, exec_rxWorker hst hsig hroom hend, memGet_memSet_self _ _ _,
      fun j hj => memGet_memSet_of_ne _ _ hj⟩
  · exact ⟨_, exec_rxWorker_of_cannot_deliver hst hguard⟩

/-- Settles O25: the meaning of `ST_IN` is that of `CH_GET in`. -/
theorem stInTakesOneReceivedByte : Obligations.StInTakesOneReceivedByte := by
  refine ⟨decode_encode (i := .stIn) rfl, fun s => ⟨rfl, fun hst => ⟨fun v hdata hstart hv => ?_, fun hempty => ?_⟩⟩⟩
  · exact exec_chGet_of_data (h := .inb) hst hdata hstart hv
  · exact ⟨_, exec_chGet_of_empty (h := .inb) hst hempty⟩

/-- Settles O26: the put writes slot `end` of `out`. -/
theorem stOutPutsAndEnables : Obligations.StOutPutsAndEnables := by
  refine ⟨fun a => decode_encode (i := .stOut a) rfl, fun s a hst => ⟨fun hroom hend => ?_, fun hfull => ?_⟩⟩
  · exact ⟨memSet s.out.mem s.out.endIdx a, exec_stOut_of_room a hst hroom hend, memGet_memSet_self _ _ _,
      fun j hj => memGet_memSet_of_ne _ _ hj⟩
  · exact ⟨_, exec_stOut_of_full a hst hfull⟩

/-- Settles O27: the guard is the request `irq_tx`, and a post on a signal at 0 raises it to 1. -/
theorem txIsrSignalsTheWorker : Obligations.TxIsrSignalsTheWorker := by
  refine ⟨decode_encode (i := .txIsr) rfl, fun s hst => ⟨fun hready hie hsig => ?_, fun hguard => ?_⟩⟩
  · rw [exec_txIsr hst (irqTx_iff.2 ⟨hready, hie, hsig⟩), hsig]
  · exact ⟨_, exec_txIsr_of_no_request hst (Bool.eq_false_iff.2 (mt irqTx_iff.1 hguard))⟩

/-- Settles O28. -/
theorem txWorkerSendsOrDisables : Obligations.TxWorkerSendsOrDisables :=
  ⟨decode_encode (i := .txWorker) rfl, fun _ hst => ⟨fun _ => exec_txWorker hst, exec_txWorker_of_empty hst,
    fun hsig => ⟨_, exec_txWorker_of_no_signal hst hsig⟩⟩⟩

/-- Settles O29. -/
theorem lineTxSendsTheByteInFlight : Obligations.LineTxSendsTheByteInFlight :=
  ⟨decode_encode (i := .lineTx) rfl, fun _ hst => ⟨exec_lineTx hst, fun hready => ⟨_, exec_lineTx_of_ready hst hready⟩⟩⟩

/-- Settles O48: of the arms of each operation, only a put writes a slot, and it is the one at `end`. -/
theorem frameOfWorkersAndPorts : Obligations.FrameOfWorkersAndPorts := by
  refine fun s t a => ⟨fun h => ?_, fun h => ?_, fun h => ?_, fun h => ?_⟩
  · obtain ⟨-, ⟨-, -, -, rfl⟩ | ⟨-, rfl⟩⟩ := rxWorker_next h
    · exact ⟨rfl, fun j hj => memGet_memSet_of_ne _ _ hj⟩
    · exact ⟨rfl, fun _ _ => rfl⟩
  · obtain ⟨-, ⟨v, -, -, -, rfl⟩ | ⟨-, rfl⟩⟩ := stIn_next h <;> rfl
  · obtain ⟨-, ⟨-, -, rfl⟩ | ⟨-, rfl⟩⟩ := stOut_next h
    · exact ⟨rfl, fun j hj => memGet_memSet_of_ne _ _ hj⟩
    · exact ⟨rfl, fun _ _ => rfl⟩
  · obtain ⟨-, ⟨v, -, -, -, -, rfl⟩ | ⟨-, -, rfl⟩ | ⟨-, rfl⟩⟩ := txWorker_next h <;> rfl

end Machine
end Sys2Proof
end

section
/-!
The receive path (41_serialtransport.md R160, R161): how many received bytes can be pending, and what an operation does to them and to
the bytes the line delivered.
-/
namespace Sys2Proof
namespace Machine

/-! ### The bytes pending -/

theorem length_receivedPending {s : State} (hg : s.inb.good s.cfg.n) :
    s.receivedPending.length = s.inb.used + (if s.rxSig = 1 then 1 else 0) + (if s.rxReady = true then 1 else 0) := by
  simp only [State.receivedPending, List.length_append, hg.length_contents, apply_ite List.length, List.length_singleton,
    List.length_nil]

/-- Settles O32. -/
theorem receiveBackPressure : Obligations.ReceiveBackPressure := by
  intro s a hs hst
  have hgood : s.inb.good s.cfg.n := hs.chan_good .inb
  have ⟨hused, _⟩ := hgood
  refine ⟨fun hfull hsig hready => ⟨?_, ?_, ?_, ?_⟩, ?_⟩
  · rw [length_receivedPending hgood, if_pos hsig, if_pos hready, hfull]
  · exact ⟨_, exec_rxWorker_of_cannot_deliver hst fun ⟨_, hroom⟩ => hroom.ne hfull⟩
  · have hirq : s.irqRx = false := Bool.eq_false_iff.2 fun h => by
      obtain ⟨-, -, hsig0⟩ := irqRx_iff.1 h
      exact absurd (hsig.symm.trans hsig0) Nat.one_ne_zero
    exact ⟨_, exec_rxIsr_of_no_request hst hirq⟩
  · exact exec_lineRx_of_ready a hst hready
  · rw [length_receivedPending hgood]
    split_ifs <;> omega

/-! ### What an operation does to the bytes pending -/

/-- From `s` to `t` the bytes `vs`, the oldest ones pending, are taken out of `in`, and the line delivers none. -/
def TakesOldest (s t : State) (vs : List Byte) : Prop :=
  s.receivedPending = vs ++ t.receivedPending ∧ t.inb.used + vs.length = s.inb.used ∧ t.lineIn = s.lineIn

theorem TakesOldest.append {s u t : State} {vs ws : List Byte} (h : TakesOldest s u vs) (h' : TakesOldest u t ws) :
    TakesOldest s t (vs ++ ws) := by
  obtain ⟨hpend, hused, hline⟩ := h
  obtain ⟨hpend', hused', hline'⟩ := h'
  refine ⟨by rw [hpend, hpend', List.append_assoc], ?_, hline'.trans hline⟩
  rw [List.length_append]
  omega

/-- R121 on `in`. -/
theorem TakesOldest.of_get {s : State} {v : Byte} (hs : MachineInv s) (hdata : 0 < s.inb.used)
    (hv : memGet s.inb.mem s.inb.start = some v) : TakesOldest s { s with inb := s.inb.afterGet s.cfg.n } [v] := by
  have hgood : s.inb.good s.cfg.n := hs.chan_good .inb
  refine ⟨?_, Nat.sub_add_cancel hdata, rfl⟩
  simp only [State.receivedPending, hgood.contents_eq_cons hdata hv, List.cons_append, List.nil_append]

theorem TakesOldest.of_receiveByte {s t : State} {b : Bool} (hs : MachineInv s) (hdata : 0 < s.inb.used)
    (h : s.receiveByte = .ok (b, t)) : ∃ v, TakesOldest s t [v] := by
  obtain ⟨-, v, hv, -⟩ := receiveByte_ok.1 h
  obtain ⟨w, k, p, ps, -, rfl⟩ := receiveByte_writes h
  exact ⟨v, .of_get hs hdata hv⟩

theorem TakesOldest.of_receive {s t : State} {b : Bool} (hs : MachineInv s) (h : s.receive = .ok (b, t)) :
    ∃ vs, TakesOldest s t vs := by
  refine (receive_induct (P := fun u => MachineInv u ∧ ∃ vs, TakesOldest s u vs) ?_ ⟨hs, [], rfl, rfl, rfl⟩ h).2
  rintro u w b ⟨hu, vs, hvs⟩ hdata hb
  obtain ⟨v, hv⟩ := TakesOldest.of_receiveByte hu hdata hb
  exact ⟨hu.of_receiveByte hdata hb, _, hvs.append hv⟩

/-- R153: the byte of `rx_slot` becomes the newest of `in`, and keeps its place among the bytes pending. -/
theorem receivedPending_of_deliver {s : State} (hs : MachineInv s) (hsig : s.rxSig = 1) (hroom : s.inb.used < s.cfg.n) :
    State.receivedPending { s with inb := s.inb.afterPut s.cfg.n s.rxSlot, rxSig := 0 } = s.receivedPending := by
  have hgood : s.inb.good s.cfg.n := hs.chan_good .inb
  simp [State.receivedPending, hgood.contents_afterPut hroom, hsig]

/-- What an operation `i` from `s` to `t` can do to the bytes pending and those the line delivered (R161). -/
inductive PendingMove (i : Instr) (s t : State) : Prop
  /-- They stay, though one may have moved from `RXD` to `rx_slot` or from there to `in`. -/
  | kept (hi : ∀ a, i ≠ .lineRx a) (hpend : t.receivedPending = s.receivedPending) (hline : t.lineIn = s.lineIn)
  /-- The line delivered one more. -/
  | grown (a : Byte) (hi : i = .lineRx a) (hpend : t.receivedPending = s.receivedPending ++ [a])
      (hline : t.lineIn = s.lineIn ++ [a])
  /-- A get took the oldest. -/
  | taken (v : Byte) (hi : i = .stIn ∨ i = .fpStep ∨ getsDirectlyFrom i .inb = true) (h : TakesOldest s t [v])
  /-- The receive loop took the oldest ones. -/
  | drained (vs : List Byte) (hi : i = .fpGet ∨ i = .fpTryget) (h : TakesOldest s t vs)
  /-- `ST_INIT` forgot them. -/
  | created (hst : s.stInited = false) (hpend : t.receivedPending = [])

theorem exec_pendingMove {i : Instr} {s t : State} (hs : MachineInv s) (hput : putsDirectlyOn i .inb = false)
    (h : exec i s = .next t) : PendingMove i s t := by
  cases i with
  | stInit =>
    obtain ⟨hst, rfl⟩ := stInit_next h
    exact .created hst rfl
  | fpInit =>
    obtain ⟨-, -, rfl⟩ := fpInit_next h
    exact .kept nofun rfl rfl
  | chPut c a =>
    cases c with
    | inb => cases hput
    | out => obtain ⟨-, ⟨-, -, rfl⟩ | ⟨-, rfl⟩⟩ := chPut_next h <;> exact .kept nofun rfl rfl
  | chTryput c a =>
    cases c with
    | inb => cases hput
    | out => obtain ⟨-, -, ⟨-, -, rfl⟩ | ⟨-, rfl⟩⟩ := chTryput_next h <;> exact .kept nofun rfl rfl
  | chGet c =>
    obtain ⟨-, ⟨v, hdata, -, hv, rfl⟩ | ⟨-, rfl⟩⟩ := chGet_next h
    · cases c with
      | inb => exact .taken v (.inr (.inr rfl)) (.of_get hs hdata hv)
      | out => exact .kept nofun rfl rfl
    · exact .kept nofun rfl rfl
  | chTryget c =>
    obtain ⟨-, -, ⟨v, hdata, -, hv, rfl⟩ | ⟨-, rfl⟩⟩ := chTryget_next h
    · cases c with
      | inb => exact .taken v (.inr (.inr rfl)) (.of_get hs hdata hv)
      | out => exact .kept nofun rfl rfl
    · exact .kept nofun rfl rfl
  | stIn =>
    obtain ⟨-, ⟨v, hdata, -, hv, rfl⟩ | ⟨-, rfl⟩⟩ := stIn_next h
    · exact .taken v (.inl rfl) (.of_get hs hdata hv)
    · exact .kept nofun rfl rfl
  | stOut a => obtain ⟨-, ⟨-, -, rfl⟩ | ⟨-, rfl⟩⟩ := stOut_next h <;> exact .kept nofun rfl rfl
  | rxIsr =>
    obtain ⟨-, ⟨hirq, rfl⟩ | ⟨-, rfl⟩⟩ := rxIsr_next h
    · obtain ⟨hready, -, hsig⟩ := irqRx_iff.1 hirq
      exact .kept nofun (by simp [State.receivedPending, hready, hsig]) rfl
    · exact .kept nofun rfl rfl
  | rxWorker =>
    obtain ⟨-, ⟨hsig, hroom, -, rfl⟩ | ⟨-, rfl⟩⟩ := rxWorker_next h
    · exact .kept nofun (receivedPending_of_deliver hs hsig hroom) rfl
    · exact .kept nofun rfl rfl
  | txIsr => obtain ⟨-, ⟨-, rfl⟩ | ⟨-, rfl⟩⟩ := txIsr_next h <;> exact .kept nofun rfl rfl
  | txWorker =>
    obtain ⟨-, ⟨v, -, -, -, -, rfl⟩ | ⟨-, -, rfl⟩ | ⟨-, rfl⟩⟩ := txWorker_next h <;> exact .kept nofun rfl rfl
  | lineRx a =>
    obtain ⟨-, hready, rfl⟩ := lineRx_next h
    exact .grown a rfl (by simp [State.receivedPending, hready]) rfl
  | lineTx => obtain ⟨-, ⟨-, rfl⟩ | ⟨-, rfl⟩⟩ := lineTx_next h <;> exact .kept nofun rfl rfl
  | fpStep =>
    obtain ⟨-, ⟨b, u, hdata, hu, rfl⟩ | ⟨-, rfl⟩⟩ := fpStep_next.1 h
    · obtain ⟨v, hv⟩ := TakesOldest.of_receiveByte hs hdata hu
      exact .taken v (.inr (.inl rfl)) hv
    · exact .kept nofun rfl rfl
  | fpGet =>
    obtain ⟨-, b, u, hu, rfl⟩ := fpGet_next.1 h
    obtain ⟨vs, hvs⟩ := TakesOldest.of_receive hs hu
    exact .drained vs (.inl rfl) hvs
  | fpTryget =>
    obtain ⟨-, b, u, hu, rfl⟩ := fpTryget_next.1 h
    obtain ⟨vs, hvs⟩ := TakesOldest.of_receive hs hu
    exact .drained vs (.inr rfl) hvs
  | fpPut a b c e => obtain ⟨-, ⟨-, rfl⟩ | ⟨-, rfl⟩⟩ := fpPut_next h <;> exact .kept nofun rfl rfl
  | fpPutStep => obtain ⟨-, ⟨-, -, -, rfl⟩ | ⟨-, rfl⟩⟩ := fpPutStep_next h <;> exact .kept nofun rfl rfl
  | frame p => exact absurd h frame_next

theorem TakesOldest.receiveInv {s t : State} {vs : List Byte} (h : TakesOldest s t vs) (hinv : ReceiveInv s) : ReceiveInv t := by
  obtain ⟨hpend, -, hline⟩ := h
  rw [ReceiveInv, hpend, ← hline] at hinv
  exact (List.suffix_append vs _).trans hinv

theorem PendingMove.receiveInv {i : Instr} {s t : State} (h : PendingMove i s t) (hinv : ReceiveInv s) : ReceiveInv t := by
  cases h with
  | kept _ hpend hline => rwa [ReceiveInv, hpend, hline]
  | grown a _ hpend hline =>
    rw [ReceiveInv, hpend, hline]
    exact List.suffix_append_self_iff.2 hinv
  | taken v _ htaken => exact htaken.receiveInv hinv
  | drained vs _ htaken => exact htaken.receiveInv hinv
  | created _ hpend =>
    rw [ReceiveInv, hpend]
    exact List.nil_suffix

/-- Settles O55: the five moves of `PendingMove`, of which the last is only before `ST_INIT`. -/
theorem stepKeepsReceiveOrder : Obligations.StepKeepsReceiveOrder := by
  intro i s t hs hput h
  have hmove := exec_pendingMove hs hput h
  refine ⟨hmove.receiveInv, fun hst => ?_⟩
  cases hmove with
  | kept hi hpend _ => exact .inl ⟨hpend, hi⟩
  | grown a hi hpend _ => exact .inr (.inl ⟨a, hi, hpend⟩)
  | taken v hi htaken =>
    obtain ⟨hpend, hused, -⟩ := htaken
    exact .inr (.inr (.inl ⟨v, hi, hpend, hused⟩))
  | drained vs hi htaken =>
    obtain ⟨hpend, hused, -⟩ := htaken
    exact .inr (.inr (.inr ⟨vs, hi, hpend, hused⟩))
  | created hst0 _ => exact absurd hst (Bool.eq_false_iff.1 hst0)

end Machine
end Sys2Proof
end

section
/-!
The transmit path (41_serialtransport.md R159, R161, R163): which operations write to its elements, and what each does to the bytes
submitted and to the transmit enable.
-/
namespace Sys2Proof
namespace Machine

/-! ### The elements of the transmit path -/

/-- The elements of the state that carry a submitted byte to the line, and the capacity. -/
structure TransmitSide where
  n : Nat
  out : Channel
  txd : Byte
  txReady : Bool
  txIe : Bool
  txSig : Nat
  lineOut : List Byte

def State.transmitSide (s : State) : TransmitSide :=
  { n := s.cfg.n, out := s.out, txd := s.txd, txReady := s.txReady, txIe := s.txIe, txSig := s.txSig, lineOut := s.lineOut }

theorem transmitSide_eq_iff {s t : State} :
    t.transmitSide = s.transmitSide ↔ t.cfg.n = s.cfg.n ∧ t.out = s.out ∧ t.txd = s.txd ∧ t.txReady = s.txReady ∧
      t.txIe = s.txIe ∧ t.txSig = s.txSig ∧ t.lineOut = s.lineOut := by
  simp only [State.transmitSide, TransmitSide.mk.injEq]

/-- The operations, other than a direct put or get on `out`, that write to the transmit side. -/
def writesTransmitSide : Instr → Bool
  | .stInit | .stOut _ | .txIsr | .txWorker | .lineTx | .fpPutStep => true
  | .fpInit | .chPut _ _ | .chGet _ | .chTryput _ _ | .chTryget _ | .stIn | .rxIsr | .rxWorker | .lineRx _ | .fpStep | .fpGet
  | .fpTryget | .fpPut _ _ _ _ | .frame _ => false

theorem receiveByte_transmitSide {s t : State} {b : Bool} (h : s.receiveByte = .ok (b, t)) : t.transmitSide = s.transmitSide := by
  obtain ⟨w, k, p, ps, -, rfl⟩ := receiveByte_writes h
  rfl

theorem receive_transmitSide {s t : State} {b : Bool} (h : s.receive = .ok (b, t)) : t.transmitSide = s.transmitSide :=
  receive_induct (P := fun u => u.transmitSide = s.transmitSide) (fun _ _ _ hu _ hb => (receiveByte_transmitSide hb).trans hu) rfl h

/-- Every other operation leaves the transmit side as it is. -/
theorem exec_transmitSide {i : Instr} {s t : State} (hi : writesTransmitSide i = false) (hput : putsDirectlyOn i .out = false)
    (hget : getsDirectlyFrom i .out = false) (h : exec i s = .next t) : t.transmitSide = s.transmitSide := by
  cases i with
  | stInit | stOut a | txIsr | txWorker | lineTx | fpPutStep => cases hi
  | fpInit =>
    obtain ⟨-, -, rfl⟩ := fpInit_next h
    rfl
  | chPut c a =>
    cases c with
    | inb => obtain ⟨-, ⟨-, -, rfl⟩ | ⟨-, rfl⟩⟩ := chPut_next h <;> rfl
    | out => cases hput
  | chGet c =>
    cases c with
    | inb => obtain ⟨-, ⟨v, -, -, -, rfl⟩ | ⟨-, rfl⟩⟩ := chGet_next h <;> rfl
    | out => cases hget
  | chTryput c a =>
    cases c with
    | inb => obtain ⟨-, -, ⟨-, -, rfl⟩ | ⟨-, rfl⟩⟩ := chTryput_next h <;> rfl
    | out => cases hput
  | chTryget c =>
    cases c with
    | inb => obtain ⟨-, -, ⟨v, -, -, -, rfl⟩ | ⟨-, rfl⟩⟩ := chTryget_next h <;> rfl
    | out => cases hget
  | stIn => obtain ⟨-, ⟨v, -, -, -, rfl⟩ | ⟨-, rfl⟩⟩ := stIn_next h <;> rfl
  | rxIsr => obtain ⟨-, ⟨-, rfl⟩ | ⟨-, rfl⟩⟩ := rxIsr_next h <;> rfl
  | rxWorker => obtain ⟨-, ⟨-, -, -, rfl⟩ | ⟨-, rfl⟩⟩ := rxWorker_next h <;> rfl
  | lineRx a =>
    obtain ⟨-, -, rfl⟩ := lineRx_next h
    rfl
  | fpStep =>
    obtain ⟨-, ⟨b, u, -, hu, rfl⟩ | ⟨-, rfl⟩⟩ := fpStep_next.1 h
    · exact receiveByte_transmitSide (t := u) hu
    · rfl
  | fpGet =>
    obtain ⟨-, b, u, hu, rfl⟩ := fpGet_next.1 h
    exact receive_transmitSide (t := u) hu
  | fpTryget =>
    obtain ⟨-, b, u, hu, rfl⟩ := fpTryget_next.1 h
    exact receive_transmitSide (t := u) hu
  | fpPut a b c e => obtain ⟨-, ⟨-, rfl⟩ | ⟨-, rfl⟩⟩ := fpPut_next h <;> rfl
  | frame p => exact absurd h frame_next

/-! ### The bytes submitted -/

theorem transmitStream_of_transmitSide_eq {s t : State} (h : t.transmitSide = s.transmitSide) :
    t.transmitStream = s.transmitStream := by
  obtain ⟨hn, hout, htxd, hready, -, -, hline⟩ := transmitSide_eq_iff.1 h
  simp only [State.transmitStream, hn, hout, htxd, hready, hline]

/-- R155: a byte put into `out` is the newest submitted. -/
theorem transmitStream_of_put {s : State} (hs : MachineInv s) (hroom : s.out.used < s.cfg.n) (a : Byte) :
    State.transmitStream { s with out := s.out.afterPut s.cfg.n a } = s.transmitStream ++ [a] := by
  have hgood : s.out.good s.cfg.n := hs.chan_good .out
  simp only [State.transmitStream, hgood.contents_afterPut hroom a, List.append_assoc]

/-- R157: with a signal pending `TXD` is free. The oldest byte of `out` goes there, and keeps its place in the stream. -/
theorem transmitStream_of_send {s : State} {v : Byte} (hs : MachineInv s) (hsig : s.txSig = 1) (hdata : 0 < s.out.used)
    (hv : memGet s.out.mem s.out.start = some v) :
    State.transmitStream { s with out := s.out.afterGet s.cfg.n, txd := v, txReady := false } = s.transmitStream := by
  obtain ⟨-, -, hgood, -, -, -, -, -, hfree⟩ := hs
  simp [State.transmitStream, hgood.contents_eq_cons hdata hv, hfree hsig]

/-- R158: the byte in flight is sent. -/
theorem transmitStream_of_sent {s : State} (hready : s.txReady = false) :
    State.transmitStream { s with lineOut := s.lineOut ++ [s.txd], txReady := true } = s.transmitStream := by
  simp [State.transmitStream, hready]

theorem getElem?_bytes_of_lt (p : Packet) {k : Nat} (hk : k < 5) : p.bytes[k]? = some (packetByte p k) := by
  interval_cases k <;> rfl

/-- Settles O56: `ST_OUT` and `FP_PUT_STEP` put a byte behind the stream, the worker and the line move its bytes on. -/
theorem transmissionKeepsSubmissionOrder : Obligations.TransmissionKeepsSubmissionOrder := by
  intro i s t hs hst hput hget h
  by_cases hi : writesTransmitSide i = true
  · cases i with
    | stInit =>
      obtain ⟨hst0, -⟩ := stInit_next h
      exact absurd hst (Bool.eq_false_iff.1 hst0)
    | stOut a =>
      obtain ⟨-, ⟨hroom, -, rfl⟩ | ⟨-, rfl⟩⟩ := stOut_next h
      · exact .inr ⟨a, transmitStream_of_put hs hroom a, rfl, .inl rfl⟩
      · exact .inl ⟨rfl, fun _ => rfl⟩
    | txIsr => obtain ⟨-, ⟨-, rfl⟩ | ⟨-, rfl⟩⟩ := txIsr_next h <;> exact .inl ⟨rfl, fun _ => rfl⟩
    | txWorker =>
      refine .inl ⟨?_, nofun⟩
      obtain ⟨-, ⟨v, hsig, hdata, -, hv, rfl⟩ | ⟨-, -, rfl⟩ | ⟨-, rfl⟩⟩ := txWorker_next h
      · exact transmitStream_of_send hs hsig hdata hv
      · rfl
      · rfl
    | lineTx =>
      obtain ⟨-, ⟨hready, rfl⟩ | ⟨-, rfl⟩⟩ := lineTx_next h
      · exact .inl ⟨transmitStream_of_sent hready, fun _ => rfl⟩
      · exact .inl ⟨rfl, fun _ => rfl⟩
    | fpPutStep =>
      obtain ⟨-, ⟨hidx, hroom, -, rfl⟩ | ⟨-, rfl⟩⟩ := fpPutStep_next h
      · exact .inr ⟨_, transmitStream_of_put hs hroom _, rfl, .inr ⟨rfl, getElem?_bytes_of_lt _ hidx⟩⟩
      · exact .inl ⟨rfl, fun _ => rfl⟩
    | _ => cases hi
  · have hside := exec_transmitSide (Bool.eq_false_iff.2 hi) hput hget h
    exact .inl ⟨transmitStream_of_transmitSide_eq hside, fun _ => congrArg (·.out.used) hside⟩

/-! ### The transmit enable -/

/-- The operations that change `tx_ie` (R159), each with the value it writes. -/
theorem exec_txIe_ne {i : Instr} {s t : State} (h : exec i s = .next t) (hne : t.txIe ≠ s.txIe) :
    (t.txIe = true ∧ ((∃ a, i = .stOut a) ∨ i = .fpPutStep)) ∨
      (t.txIe = false ∧ ((i = .txWorker ∧ s.txSig = 1 ∧ s.out.used = 0) ∨ i = .stInit)) := by
  cases i with
  | stInit =>
    obtain ⟨-, rfl⟩ := stInit_next h
    exact .inr ⟨rfl, .inr rfl⟩
  | stOut a =>
    obtain ⟨-, ⟨-, -, rfl⟩ | ⟨-, rfl⟩⟩ := stOut_next h
    · exact .inl ⟨rfl, .inl ⟨a, rfl⟩⟩
    · exact absurd rfl hne
  | txWorker =>
    obtain ⟨-, ⟨v, -, -, -, -, rfl⟩ | ⟨hsig, hempty, rfl⟩ | ⟨-, rfl⟩⟩ := txWorker_next h
    · exact absurd rfl hne
    · exact .inr ⟨rfl, .inl ⟨rfl, hsig, hempty⟩⟩
    · exact absurd rfl hne
  | fpPutStep =>
    obtain ⟨-, ⟨-, -, -, rfl⟩ | ⟨-, rfl⟩⟩ := fpPutStep_next h
    · exact .inl ⟨rfl, .inr rfl⟩
    · exact absurd rfl hne
  | chPut c a =>
    obtain ⟨-, ⟨-, -, rfl⟩ | ⟨-, rfl⟩⟩ := chPut_next h
    · exact absurd (s.setChan_txIe c _) hne
    · exact absurd rfl hne
  | chGet c =>
    obtain ⟨-, ⟨v, -, -, -, rfl⟩ | ⟨-, rfl⟩⟩ := chGet_next h
    · exact absurd (s.setChan_txIe c _) hne
    · exact absurd rfl hne
  | chTryput c a =>
    obtain ⟨-, -, ⟨-, -, rfl⟩ | ⟨-, rfl⟩⟩ := chTryput_next h
    · exact absurd (s.setChan_txIe c _) hne
    · exact absurd rfl hne
  | chTryget c =>
    obtain ⟨-, -, ⟨v, -, -, -, rfl⟩ | ⟨-, rfl⟩⟩ := chTryget_next h
    · exact absurd (s.setChan_txIe c _) hne
    · exact absurd rfl hne
  | txIsr => obtain ⟨-, ⟨-, rfl⟩ | ⟨-, rfl⟩⟩ := txIsr_next h <;> exact absurd rfl hne
  | lineTx => obtain ⟨-, ⟨-, rfl⟩ | ⟨-, rfl⟩⟩ := lineTx_next h <;> exact absurd rfl hne
  | _ => exact absurd (congrArg TransmitSide.txIe (exec_transmitSide rfl rfl rfl h)) hne

/-- Settles O31: the two transitions by `exec_txIe_ne`; the values written, from the arms of the four operations. -/
theorem transmitEnableMachine : Obligations.TransmitEnableMachine := by
  refine fun i s t h => ⟨fun hs ht => ?_, fun hs ht => ?_, ?_, ?_⟩
  · obtain ⟨-, hi⟩ | ⟨hf, -⟩ := exec_txIe_ne h (by simp [hs, ht])
    · exact hi
    · exact absurd ht (Bool.eq_false_iff.1 hf)
  · obtain ⟨hset, -⟩ | ⟨-, hi⟩ := exec_txIe_ne h (by simp [hs, ht])
    · exact absurd hset (Bool.eq_false_iff.1 ht)
    · exact hi
  · rintro (⟨rfl, hsig, hempty⟩ | rfl)
    · obtain ⟨hst, -⟩ := txWorker_next h
      cases (exec_txWorker_of_empty hst hsig hempty).symm.trans h
      rfl
    · obtain ⟨-, rfl⟩ := stInit_next h
      rfl
  · rintro (⟨a, rfl⟩ | rfl) hused
    · obtain ⟨-, ⟨-, -, rfl⟩ | ⟨-, rfl⟩⟩ := stOut_next h
      · rfl
      · exact absurd hused (Nat.succ_ne_self _).symm
    · obtain ⟨-, ⟨-, -, -, rfl⟩ | ⟨-, rfl⟩⟩ := fpPutStep_next h
      · rfl
      · exact absurd hused (Nat.succ_ne_self _).symm

theorem TransmitInv.of_transmitSide_eq {s t : State} (h : t.transmitSide = s.transmitSide) (hinv : TransmitInv s) :
    TransmitInv t := by
  obtain ⟨-, hout, -, -, hie, hsig, -⟩ := transmitSide_eq_iff.1 h
  rwa [TransmitInv, hout, hie, hsig]

/-- A get on either channel leaves no more bytes in `out` than there were. -/
theorem TransmitInv.of_get {s : State} (h : Chan) (hinv : TransmitInv s) :
    TransmitInv (s.setChan h ((s.chan h).afterGet s.cfg.n)) := by
  obtain ⟨hwait, hsig⟩ := hinv
  cases h with
  | inb => exact ⟨hwait, hsig⟩
  | out => exact ⟨fun hdata => hwait (Nat.lt_of_lt_of_le hdata (Nat.sub_le _ _)), hsig⟩

/-- Settles O54: a put on `out` enables the event, `TX_ISR` posts only while it is enabled, and `TX_WORKER` disables it only with `out`
empty, lowering the signal. -/
theorem stepKeepsTransmitInv : Obligations.StepKeepsTransmitInv := by
  intro i s t _ hinv hput h
  have ⟨hwait, hsig⟩ := hinv
  by_cases hi : (writesTransmitSide i || getsDirectlyFrom i .out) = true
  · cases i with
    | stInit =>
      obtain ⟨-, rfl⟩ := stInit_next h
      exact ⟨nofun, nofun⟩
    | stOut a =>
      obtain ⟨-, ⟨-, -, rfl⟩ | ⟨-, rfl⟩⟩ := stOut_next h
      · exact ⟨fun _ => rfl, fun _ => rfl⟩
      · exact hinv
    | chGet c =>
      obtain ⟨-, ⟨v, -, -, -, rfl⟩ | ⟨-, rfl⟩⟩ := chGet_next h
      · exact hinv.of_get c
      · exact hinv
    | chTryget c =>
      obtain ⟨-, -, ⟨v, -, -, -, rfl⟩ | ⟨-, rfl⟩⟩ := chTryget_next h
      · exact hinv.of_get c
      · exact hinv
    | txIsr =>
      obtain ⟨-, ⟨hirq, rfl⟩ | ⟨-, rfl⟩⟩ := txIsr_next h
      · obtain ⟨-, hie, -⟩ := irqTx_iff.1 hirq
        exact ⟨hwait, fun _ => hie⟩
      · exact hinv
    | txWorker =>
      obtain ⟨-, ⟨v, hone, -, -, -, rfl⟩ | ⟨-, hempty, rfl⟩ | ⟨-, rfl⟩⟩ := txWorker_next h
      · exact ⟨fun _ => hsig hone, nofun⟩
      · exact ⟨fun hdata => absurd hempty hdata.ne', nofun⟩
      · exact hinv
    | lineTx => obtain ⟨-, ⟨-, rfl⟩ | ⟨-, rfl⟩⟩ := lineTx_next h <;> exact hinv
    | fpPutStep =>
      obtain ⟨-, ⟨-, -, -, rfl⟩ | ⟨-, rfl⟩⟩ := fpPutStep_next h
      · exact ⟨fun _ => rfl, fun _ => rfl⟩
      · exact hinv
    | _ => cases hi
  · obtain ⟨hside, hget⟩ := Bool.or_eq_false_iff.1 (Bool.eq_false_iff.2 hi)
    exact .of_transmitSide_eq (exec_transmitSide hside hput hget h) hinv

end Machine
end Sys2Proof
end

section
/-!
The framing operations, one at a time (42_framing.md R190, R192, R195, R196): what each does in every arm of its guard, and what it
leaves unchanged. The arms in which the send sequencer moves stand with the pseudo-operations of R101.
-/
namespace Sys2Proof
namespace Machine

section
variable {s : State}

/-! ### One operation, by the arm of its guard -/

/-- R192, with a byte to take. -/
theorem exec_fpStep_of_data {u : State} {b : Bool} (hfp : s.fpInited = true) (hdata : 0 < s.inb.used)
    (h : s.receiveByte = .ok (b, u)) : exec .fpStep s = .next { u with result := .ok b } :=
  fpStep_next.2 ⟨hfp, .inl ⟨b, u, hdata, h, rfl⟩⟩

/-- R192, with nothing to take. -/
theorem exec_fpStep_of_empty (hfp : s.fpInited = true) (hempty : s.inb.used = 0) :
    exec .fpStep s = .next { s with result := .held } :=
  fpStep_next.2 ⟨hfp, .inr ⟨hempty, rfl⟩⟩

/-- R195, with a packet still being sent. -/
theorem exec_fpPut_of_busy (a b c e : Byte) (hfp : s.fpInited = true) (hbusy : s.putIdx ≠ 5) :
    exec (.fpPut a b c e) s = .next { s with result := .held } := by
  simp [exec, execFpPut, needFp_next, hfp, hbusy, hold_next]

/-- R196, with the sequencer idle or `out` full. -/
theorem exec_fpPutStep_of_cannot_push (hfp : s.fpInited = true) (hguard : ¬(s.putIdx < 5 ∧ s.out.used < s.cfg.n)) :
    exec .fpPutStep s = .next { s with result := .held } := by
  simp only [exec, execFpPutStep, needFp_next, canPush_false_iff.2 hguard]
  exact ⟨hfp, rfl⟩

end

/-! ### The obligations on one operation -/

/-- Settles O13: the three elements R190 leaves unspecified keep their values here. -/
theorem fpInitEmptiesWindowAndSequencer : Obligations.FpInitEmptiesWindowAndSequencer := by
  refine ⟨decode_encode (i := .fpInit) rfl, fun s => ⟨fun hst hfp => ⟨s.w, s.pkt, s.putBuf, ?_⟩, fun hst => ?_, fun hst hfp => ?_⟩⟩
  · simp [exec, execFpInit, needSt_next, hst, hfp, done_next]
  · simp [exec, execFpInit, State.needSt, hst]
  · simp [exec, execFpInit, State.needSt, hst, hfp]

/-- Settles O35: the step tests the window as it is after the byte taken is shifted in. -/
theorem fpStepSlidesAndTests : Obligations.FpStepSlidesAndTests := by
  refine ⟨decode_encode (i := .fpStep) rfl, fun s hfp => ⟨fun x hdata hstart hx => ?_, fun hempty => ?_⟩⟩
  · have hstep {b : Bool} {u : State} (hslide : State.slide { s with inb := s.inb.afterGet s.cfg.n } x = (b, u)) :
        exec .fpStep s = .next { u with result := .ok b } :=
      exec_fpStep_of_data hfp hdata (receiveByte_ok.2 ⟨hstart, x, hx, hslide⟩)
    by_cases hc : min (s.wcount + 1) 5 = 5 ∧ s.w.param1 ^^^ s.w.param2 ^^^ s.w.param3 ^^^ s.w.checksum = x
    · have ⟨h5, hsum⟩ := hc
      rw [if_pos hc]
      exact hstep (slide_of_valid ⟨h5, Packet.valid_iff.2 hsum⟩)
    · rw [if_neg hc]
      exact hstep (slide_of_not_valid fun ⟨h5, hvalid⟩ => hc ⟨h5, Packet.valid_iff.1 hvalid⟩)
  · exact ⟨_, exec_fpStep_of_empty hfp hempty⟩

/-- Settles O43. -/
theorem fpPutLoadsTheSequencer : Obligations.FpPutLoadsTheSequencer :=
  ⟨fun a b c e => decode_encode (i := .fpPut a b c e) rfl,
    fun _ a b c e hfp => ⟨exec_fpPut a b c e hfp, fun hbusy => ⟨_, exec_fpPut_of_busy a b c e hfp hbusy⟩⟩⟩

/-- Settles O44: an index that names a byte of the send buffer is below 5; the put writes slot `end` of `out`. -/
theorem fpPutStepPushesTheNextByte : Obligations.FpPutStepPushesTheNextByte := by
  refine ⟨decode_encode (i := .fpPutStep) rfl, fun s hfp => ⟨fun v hv hroom hend => ?_, fun hguard => ?_⟩⟩
  · have hidx : s.putIdx < 5 := (List.getElem?_eq_some_iff.1 hv).1
    obtain rfl : packetByte s.putBuf s.putIdx = v := Option.some.inj ((getElem?_bytes_of_lt _ hidx).symm.trans hv)
    exact ⟨memSet s.out.mem s.out.endIdx _, exec_fpPutStep hfp hidx hroom hend, memGet_memSet_self _ _ _,
      fun j hj => memGet_memSet_of_ne _ _ hj⟩
  · exact ⟨_, exec_fpPutStep_of_cannot_push hfp hguard⟩

/-! ### Frames -/

/-- Settles O50: only the put of `FP_PUT_STEP` writes a slot, and it is the one at `end`. -/
theorem frameOfFramingSend : Obligations.FrameOfFramingSend := by
  refine fun s t a b c e => ⟨fun h => ?_, fun h => ?_⟩
  · obtain ⟨-, ⟨-, rfl⟩ | ⟨-, rfl⟩⟩ := fpPut_next h <;> rfl
  · obtain ⟨-, ⟨-, -, -, rfl⟩ | ⟨-, rfl⟩⟩ := fpPutStep_next h
    · exact ⟨rfl, fun j hj => memGet_memSet_of_ne _ _ hj⟩
    · exact ⟨rfl, fun _ _ => rfl⟩

/-- From `s` to `t` at most the read side of `in`, the window, its count, the current packet, its history and the result changed. -/
def OnlyReceives (s t : State) : Prop :=
  t = { s with
        inb := { s.inb with start := t.inb.start, used := t.inb.used }
        w := t.w, wcount := t.wcount, pkt := t.pkt, pktOut := t.pktOut, result := t.result }

theorem OnlyReceives.refl (s : State) : OnlyReceives s s := rfl

theorem OnlyReceives.trans {s u t : State} (h : OnlyReceives s u) (h' : OnlyReceives u t) : OnlyReceives s t := by
  rw [OnlyReceives, h] at h'
  exact h'

theorem receiveByte_onlyReceives {s t : State} {b : Bool} (h : s.receiveByte = .ok (b, t)) : OnlyReceives s t := by
  obtain ⟨w, k, p, ps, -, rfl⟩ := receiveByte_writes h
  rfl

theorem receive_onlyReceives {s t : State} {b : Bool} (h : s.receive = .ok (b, t)) : OnlyReceives s t :=
  receive_induct (P := OnlyReceives s) (fun _ _ _ hu _ hb => hu.trans (receiveByte_onlyReceives hb)) (.refl s) h

/-- Settles O49: an iteration writes nothing else (`receiveByte_onlyReceives`), so neither does the loop. -/
theorem frameOfFramingReceive : Obligations.FrameOfFramingReceive := by
  have hresult {s u : State} (r : Result) (h : OnlyReceives s u) : OnlyReceives s { u with result := r } := h.trans rfl
  rintro i s t (rfl | rfl | rfl) h
  · obtain ⟨-, ⟨b, u, -, hu, rfl⟩ | ⟨-, rfl⟩⟩ := fpStep_next.1 h
    · exact hresult _ (receiveByte_onlyReceives hu)
    · rfl
  · obtain ⟨-, b, u, hu, rfl⟩ := fpGet_next.1 h
    exact hresult _ (receive_onlyReceives hu)
  · obtain ⟨-, b, u, hu, rfl⟩ := fpTryget_next.1 h
    exact hresult _ (receive_onlyReceives hu)

end Machine
end Sys2Proof
end

section
/-!
The receiver as a machine over bytes (42_framing.md R192, R200): its own elements, what a byte does to them, and what it answers to a
stream of bytes in which no five consecutive ones are a valid frame, and to such a stream followed by one.
-/
namespace Sys2Proof
namespace Machine

/-! ### The receiver and one byte -/

/-- The elements of the receive algorithm: window, count, current packet and the packets delivered (R39 to R41, R46). -/
structure Receiver where
  w : Packet
  wcount : Nat
  pkt : Packet
  pktOut : List Packet

def State.receiver (s : State) : Receiver := { w := s.w, wcount := s.wcount, pkt := s.pkt, pktOut := s.pktOut }

theorem receiver_eq_iff {s : State} {r : Receiver} :
    s.receiver = r ↔ s.w = r.w ∧ s.wcount = r.wcount ∧ s.pkt = r.pkt ∧ s.pktOut = r.pktOut := by
  cases r
  simp only [State.receiver, Receiver.mk.injEq]

/-- The receiver after a success with window `p` (R192): the window counts as empty and `p` is delivered. -/
def Receiver.deliver (r : Receiver) (p : Packet) : Receiver := { w := p, wcount := 0, pkt := p, pktOut := r.pktOut ++ [p] }

/-- What `State.slide` does to the receiver (`slide_receiver`). -/
def Receiver.slide (r : Receiver) (x : Byte) : Bool × Receiver :=
  if min (r.wcount + 1) 5 = 5 ∧ (shiftIn r.w x).valid = true then (true, r.deliver (shiftIn r.w x))
  else (false, { r with w := shiftIn r.w x, wcount := min (r.wcount + 1) 5 })

theorem slide_receiver (s : State) (x : Byte) : s.receiver.slide x = ((s.slide x).1, (s.slide x).2.receiver) := by
  by_cases hc : min (s.wcount + 1) 5 = 5 ∧ (shiftIn s.w x).valid = true
  · rw [slide_of_valid hc]
    exact if_pos hc
  · rw [slide_of_not_valid hc]
    exact if_neg hc

/-! ### A stream of bytes -/

/-- The ok bits the receiver answers to the bytes `xs`, and the receiver after them. -/
def Receiver.run : Receiver → List Byte → List Bool × Receiver
  | r, [] => ([], r)
  | r, x :: xs => ((r.slide x).1 :: ((r.slide x).2.run xs).1, ((r.slide x).2.run xs).2)

theorem Receiver.run_append (r : Receiver) (xs ys : List Byte) :
    r.run (xs ++ ys) = ((r.run xs).1 ++ ((r.run xs).2.run ys).1, ((r.run xs).2.run ys).2) := by
  induction xs generalizing r with
  | nil => rfl
  | cons x xs ih =>
    rw [List.cons_append]
    simp only [Receiver.run, ih, List.cons_append]

/-- The window holds the last five of its own bytes and those shifted in. -/
theorem bytes_foldl_shiftIn (w : Packet) (xs : List Byte) : (xs.foldl shiftIn w).bytes = (w.bytes ++ xs).drop xs.length := by
  induction xs generalizing w with
  | nil => exact (List.append_nil _).symm
  | cons x xs ih =>
    rw [List.foldl_cons, ih]
    rfl

theorem bytes_foldl_shiftIn_of_le {w : Packet} {xs : List Byte} (h : 5 ≤ xs.length) :
    (xs.foldl shiftIn w).bytes = xs.drop (xs.length - 5) := by
  rw [bytes_foldl_shiftIn, List.drop_append, List.drop_eq_nil_of_le h, List.nil_append]
  rfl

/-- R40: with no more than five bytes counted, those shifted in stand behind those counted before. -/
theorem drop_bytes_foldl_shiftIn (w : Packet) {k : Nat} {xs : List Byte} (h : k + xs.length ≤ 5) :
    (xs.foldl shiftIn w).bytes.drop (5 - (k + xs.length)) = w.bytes.drop (5 - k) ++ xs := by
  have hcount : xs.length + (5 - (k + xs.length)) = 5 - k := by omega
  have hle : 5 - k ≤ w.bytes.length := Nat.sub_le 5 k
  rw [bytes_foldl_shiftIn, List.drop_drop, hcount, List.drop_append_of_le_length hle]

/-- No five consecutive bytes of `bs` satisfy R93. -/
def NoFrameIn (bs : List Byte) : Prop := ∀ q : Packet, q.bytes <:+: bs → q.valid = false

theorem NoFrameIn.of_length_lt {bs : List Byte} (h : bs.length < 5) : NoFrameIn bs :=
  fun _ hq => absurd hq.length_le (Nat.not_le_of_lt h)

/-- The receiver after the bytes `bs`, none of which was a success. -/
def Receiver.collect (r : Receiver) (bs : List Byte) : Receiver :=
  { r with w := bs.foldl shiftIn r.w, wcount := min (r.wcount + bs.length) 5 }

theorem Receiver.collect_nil {r : Receiver} (hcount : r.wcount ≤ 5) : r.collect [] = r := by
  have hkept : min (r.wcount + 0) 5 = r.wcount := Nat.min_eq_left hcount
  simp only [Receiver.collect, List.foldl_nil, List.length_nil, hkept]

/-- R192: the next byte is a success exactly when five bytes are counted and the last five are a valid packet. -/
theorem Receiver.slide_collect (r : Receiver) (bs : List Byte) (x : Byte) :
    (r.collect bs).slide x =
      if 5 ≤ r.wcount + (bs ++ [x]).length ∧ ((bs ++ [x]).foldl shiftIn r.w).valid = true then
        (true, r.deliver ((bs ++ [x]).foldl shiftIn r.w))
      else (false, r.collect (bs ++ [x])) := by
  have hcount : min (min (r.wcount + bs.length) 5 + 1) 5 = min (r.wcount + (bs ++ [x]).length) 5 := by
    rw [List.length_append, List.length_singleton]
    omega
  have hwindow : shiftIn (bs.foldl shiftIn r.w) x = (bs ++ [x]).foldl shiftIn r.w := by
    rw [List.foldl_append]
    rfl
  simp only [Receiver.slide, Receiver.collect, hwindow, hcount, min_eq_right_iff]
  rfl

/-- While each window counted as full fails the test, every byte is answered ok = 0. -/
theorem Receiver.run_of_misses {r : Receiver} (hcount : r.wcount ≤ 5) {bs : List Byte}
    (hmiss : ∀ cs, cs <+: bs → 5 ≤ r.wcount + cs.length → (cs.foldl shiftIn r.w).valid = false) :
    r.run bs = (List.replicate bs.length false, r.collect bs) := by
  induction bs using List.reverseRecOn with
  | nil =>
    rw [Receiver.collect_nil hcount]
    rfl
  | append_singleton bs x ih =>
    have hno : ¬(5 ≤ r.wcount + (bs ++ [x]).length ∧ ((bs ++ [x]).foldl shiftIn r.w).valid = true) := fun ⟨h5, hvalid⟩ =>
      absurd hvalid (Bool.eq_false_iff.1 (hmiss _ List.prefix_rfl h5))
    have hih := ih fun cs hcs => hmiss cs (hcs.trans (List.prefix_append bs [x]))
    rw [Receiver.run_append, hih, List.length_append, List.length_singleton, List.replicate_succ']
    simp only [Receiver.run, Receiver.slide_collect, if_neg hno]

/-- Fewer than five bytes counted make no test (R192). -/
theorem Receiver.run_of_few {r : Receiver} {bs : List Byte} (hfew : r.wcount + bs.length < 5) :
    r.run bs = (List.replicate bs.length false, r.collect bs) :=
  Receiver.run_of_misses (by omega) fun cs hcs h5 => by
    have hle := hcs.length_le
    omega

/-- From an empty window, a stream without a valid frame in it is answered ok = 0 throughout. -/
theorem Receiver.run_of_noFrameIn {r : Receiver} (hempty : r.wcount = 0) {bs : List Byte} (hno : NoFrameIn bs) :
    r.run bs = (List.replicate bs.length false, r.collect bs) := by
  refine Receiver.run_of_misses (by omega) fun cs hcs h5 => hno _ ?_
  rw [bytes_foldl_shiftIn_of_le (by omega)]
  exact (List.drop_suffix _ _).isInfix.trans hcs.isInfix

/-! ### A frame -/

/-- The four bytes of a packet before its checksum (R90). -/
def payload (p : Packet) : List Byte := [p.command, p.param1, p.param2, p.param3]

theorem append_bytes (noise : List Byte) (p : Packet) : noise ++ p.bytes = noise ++ payload p ++ [p.checksum] :=
  (List.append_assoc noise (payload p) [p.checksum]).symm

theorem foldl_shiftIn_append_bytes (w p : Packet) (noise : List Byte) : (noise ++ p.bytes).foldl shiftIn w = p := by
  rw [List.foldl_append]
  rfl

/-- R192: the checksum of a valid packet, collected behind its other bytes, is a success. -/
theorem Receiver.slide_checksum (r : Receiver) {p : Packet} (hvalid : p.valid = true) (noise : List Byte) :
    (r.collect (noise ++ payload p)).slide p.checksum = (true, r.deliver p) := by
  have h5 : 5 ≤ r.wcount + (noise ++ p.bytes).length := by
    rw [List.length_append]
    exact Nat.le_add_left 5 (r.wcount + noise.length)
  rw [Receiver.slide_collect, ← append_bytes, foldl_shiftIn_append_bytes, if_pos ⟨h5, hvalid⟩]

/-- R200: from an empty window, a stream without a valid frame in it that ends in the payload of a valid packet, and the checksum:
only the last byte is a success, and the packet is delivered. -/
theorem Receiver.run_of_frame {r : Receiver} {p : Packet} {noise : List Byte} (hempty : r.wcount = 0) (hvalid : p.valid = true)
    (hno : NoFrameIn (noise ++ payload p)) :
    r.run (noise ++ p.bytes) = (List.replicate (noise.length + 4) false ++ [true], r.deliver p) := by
  rw [append_bytes, Receiver.run_append, Receiver.run_of_noFrameIn hempty hno, List.length_append]
  simp only [Receiver.run, Receiver.slide_checksum r hvalid]
  rfl

theorem noFrameIn_payload (p : Packet) : NoFrameIn (payload p) := .of_length_lt (Nat.lt_succ_self 4)

/-- The premise of R200, on the windows that begin inside the noise, covers every window that ends before the frame's last byte. -/
theorem noFrameIn_of_windows {noise : List Byte} {p : Packet}
    (h : ∀ (i : Nat) (q : Packet), i < noise.length → ((noise ++ p.bytes).drop i).take 5 = q.bytes → q.valid = false) :
    NoFrameIn (noise ++ payload p) := by
  rintro q ⟨before, after, hq⟩
  have hlen : before.length < noise.length := by
    have htotal := congrArg List.length hq
    simp only [List.length_append, Packet.bytes, payload, List.length_cons, List.length_nil] at htotal
    omega
  have hstream : noise ++ p.bytes = before ++ (q.bytes ++ (after ++ [p.checksum])) := by
    rw [append_bytes, ← hq, List.append_assoc, List.append_assoc]
  refine h before.length q hlen ?_
  rw [hstream, List.drop_left]
  rfl

end Machine
end Sys2Proof
end

section
/-!
The receive loop of `FP_GET` and `FP_TRYGET` by its first iteration (42_framing.md R193, R194), and that neither reads the result of
an earlier operation.
-/
namespace Sys2Proof
namespace Machine

/-! ### The receive loop, by its first iteration -/

section
variable {s t : State}

theorem receive_of_hit (hdata : 0 < s.inb.used) (h : s.receiveByte = .ok (true, t)) : s.receive = .ok (true, t) := by
  obtain ⟨k, hk⟩ := Nat.exists_eq_succ_of_ne_zero hdata.ne'
  simp only [State.receive, hk, receiveLoop, h]

theorem receive_of_miss (hdata : 0 < s.inb.used) (h : s.receiveByte = .ok (false, t)) : s.receive = t.receive := by
  obtain ⟨k, hk⟩ := Nat.exists_eq_succ_of_ne_zero hdata.ne'
  have hleft : t.inb.used = k := by
    obtain ⟨w, j, p, ps, -, rfl⟩ := receiveByte_writes h
    exact (congrArg (· - 1) hk).trans (Nat.succ_sub_one k)
  simp only [State.receive, hk, hleft, receiveLoop, h]

theorem receive_of_empty (hempty : s.inb.used = 0) : s.receive = .ok (false, s) := by
  simp only [State.receive, hempty, receiveLoop]

end

/-! ### The result marker -/

/-- The ok bit and state an iteration answers, with `r` in the state's field `result`. -/
def withResult (r : Result) (x : Bool × State) : Bool × State := (x.1, { x.2 with result := r })

theorem slide_withResult (s : State) (r : Result) (x : Byte) :
    State.slide { s with result := r } x = withResult r (s.slide x) := by
  by_cases hc : min (s.wcount + 1) 5 = 5 ∧ (shiftIn s.w x).valid = true
  · rw [slide_of_valid hc, slide_of_valid (s := { s with result := r }) hc]
    rfl
  · rw [slide_of_not_valid hc, slide_of_not_valid (s := { s with result := r }) hc]
    rfl

theorem receiveByte_withResult (s : State) (r : Result) :
    State.receiveByte { s with result := r } = s.receiveByte.map (withResult r) := by
  simp only [State.receiveByte, State.getFrom, State.chan_inb]
  cases s.inb.getByte s.cfg.n .inb with
  | error f => rfl
  | ok y => exact congrArg Except.ok (slide_withResult { s with inb := y.2 } r y.1)

theorem receiveLoop_withResult (fuel : Nat) (s : State) (r : Result) :
    receiveLoop fuel { s with result := r } = (receiveLoop fuel s).map (withResult r) := by
  induction fuel generalizing s with
  | zero => rfl
  | succ fuel ih =>
    simp only [receiveLoop, receiveByte_withResult]
    rcases s.receiveByte with f | ⟨_ | _, u⟩
    · rfl
    · exact ih u
    · rfl

/-- No receive reads the result of an earlier operation (log 13). -/
theorem receive_withResult (s : State) (r : Result) : State.receive { s with result := r } = s.receive.map (withResult r) :=
  receiveLoop_withResult s.inb.used s r

/-! ### `FP_GET` and `FP_TRYGET`, by what the loop finds -/

section
variable {s u : State}

theorem exec_fpGet_of_hit (hfp : s.fpInited = true) (h : s.receive = .ok (true, u)) :
    exec .fpGet s = .next { u with result := .packet u.pkt.command u.pkt.param1 u.pkt.param2 u.pkt.param3 } :=
  fpGet_next.2 ⟨hfp, true, u, h, rfl⟩

theorem exec_fpTryget_of_hit (hfp : s.fpInited = true) (h : s.receive = .ok (true, u)) :
    exec .fpTryget s = .next { u with result := .okPacket u.pkt.command u.pkt.param1 u.pkt.param2 u.pkt.param3 } :=
  fpTryget_next.2 ⟨hfp, true, u, h, rfl⟩

theorem exec_fpGet_of_miss (hfp : s.fpInited = true) (h : s.receive = .ok (false, u)) :
    exec .fpGet s = .next { u with result := .held } :=
  fpGet_next.2 ⟨hfp, false, u, h, rfl⟩

theorem exec_fpTryget_of_miss (hfp : s.fpInited = true) (h : s.receive = .ok (false, u)) :
    exec .fpTryget s = .next { u with result := .ok false } :=
  fpTryget_next.2 ⟨hfp, false, u, h, rfl⟩

/-- The iteration that an `FP_STEP` with a byte to take was. -/
theorem receiveByte_of_fpStep {b : Bool} (hdata : 0 < s.inb.used) (h : exec .fpStep s = .next u) (hres : u.result = .ok b) :
    ∃ v : State, s.receiveByte = .ok (b, v) ∧ u = { v with result := .ok b } := by
  obtain ⟨-, ⟨b', v, -, hv, rfl⟩ | ⟨hempty, -⟩⟩ := fpStep_next.1 h
  · obtain rfl : b' = b := Result.ok.inj hres
    exact ⟨v, hv, rfl⟩
  · exact absurd hempty hdata.ne'

/-- After an `FP_STEP` that returned ok = 0 the loop goes on as it would have from the state before it. -/
theorem receive_of_fpStep_miss (hdata : 0 < s.inb.used) (h : exec .fpStep s = .next u) (hres : u.result = .ok false) :
    u.receive = s.receive.map (withResult (.ok false)) := by
  obtain ⟨v, hv, rfl⟩ := receiveByte_of_fpStep hdata h hres
  rw [receive_withResult, receive_of_miss hdata hv]

theorem fpInited_of_fpStep (h : exec .fpStep s = .next u) : u.fpInited = s.fpInited :=
  congrArg (·.2.2.1) (exec_lifecycle h nofun nofun)

/-- `FP_GET` reads `fp_inited` and what the loop finds, and overwrites the result. -/
theorem exec_fpGet_congr {r : Result} (hfp : u.fpInited = s.fpInited) (h : u.receive = s.receive.map (withResult r)) :
    exec .fpGet u = exec .fpGet s := by
  simp only [exec, execFpGet, State.needFp, hfp, h]
  rcases s.receive with f | ⟨_ | _, v⟩ <;> rfl

/-- `FP_TRYGET` reads `fp_inited` and what the loop finds, and overwrites the result. -/
theorem exec_fpTryget_congr {r : Result} (hfp : u.fpInited = s.fpInited) (h : u.receive = s.receive.map (withResult r)) :
    exec .fpTryget u = exec .fpTryget s := by
  simp only [exec, execFpTryget, State.needFp, hfp, h]
  rcases s.receive with f | ⟨_ | _, v⟩ <;> rfl

end

/-- Settles O36: the loop does what its first iteration does, and after a miss what it does from the next state. -/
theorem fpGetRepeatsFpStep : Obligations.FpGetRepeatsFpStep := by
  refine ⟨decode_encode (i := .fpGet) rfl, fun s hfp => ⟨fun t hdata h hres => ?_, fun t hdata h hres => ?_, fun hempty => ?_⟩⟩
  · obtain ⟨v, hv, rfl⟩ := receiveByte_of_fpStep hdata h hres
    rw [exec_fpGet_of_hit hfp (receive_of_hit hdata hv)]
  · exact (exec_fpGet_congr (fpInited_of_fpStep h) (receive_of_fpStep_miss hdata h hres)).symm
  · exact ⟨_, exec_fpGet_of_miss hfp (receive_of_empty hempty)⟩

/-- Settles O37: the same of `FP_TRYGET`, which answers ok = 0 where `FP_GET` holds. -/
theorem fpTrygetRepeatsFpStep : Obligations.FpTrygetRepeatsFpStep := by
  refine ⟨decode_encode (i := .fpTryget) rfl, fun s hfp => ⟨fun t hdata h hres => ?_, fun t hdata h hres => ?_, fun hempty => ?_⟩⟩
  · obtain ⟨v, hv, rfl⟩ := receiveByte_of_fpStep hdata h hres
    rw [exec_fpTryget_of_hit hfp (receive_of_hit hdata hv)]
  · exact (exec_fpTryget_congr (fpInited_of_fpStep h) (receive_of_fpStep_miss hdata h hres)).symm
  · exact exec_fpTryget_of_miss hfp (receive_of_empty hempty)

end Machine
end Sys2Proof
end

section
/-!
The bytes of `in` and the receiver (42_framing.md R194, R199 to R201): what the receive loop, and what a run of `FP_STEP`s with steps of
other agents between them, answers to the bytes it takes.
-/
namespace Sys2Proof
namespace Machine

/-! ### The loop over the bytes of `in` -/

/-- From `s` to `t` the receiver took the bytes `bs` from the head of `in`. -/
structure Takes (s t : State) (bs : List Byte) : Prop where
  inv : MachineInv t
  contents : s.inb.contents s.cfg.n = bs ++ t.inb.contents t.cfg.n
  receiver : t.receiver = (s.receiver.run bs).2
  lifecycle : t.lifecycle = s.lifecycle

theorem Takes.refl {s : State} (hs : MachineInv s) : Takes s s [] := ⟨hs, rfl, rfl, rfl⟩

theorem Takes.trans {s u t : State} {xs ys : List Byte} (h : Takes s u xs) (h' : Takes u t ys) : Takes s t (xs ++ ys) where
  inv := h'.inv
  contents := by rw [h.contents, h'.contents, List.append_assoc]
  receiver := by rw [h'.receiver, h.receiver, Receiver.run_append]
  lifecycle := h'.lifecycle.trans h.lifecycle

theorem Takes.fpInited {s t : State} {bs : List Byte} (h : Takes s t bs) (hfp : s.fpInited = true) : t.fpInited = true :=
  (congrArg (·.2.2.1) h.lifecycle).trans hfp

theorem Takes.used {s t : State} {bs : List Byte} (h : Takes s t bs) (hs : MachineInv s) : s.inb.used = bs.length + t.inb.used := by
  have hgood : s.inb.good s.cfg.n := hs.chan_good .inb
  have hgood' : t.inb.good t.cfg.n := h.inv.chan_good .inb
  rw [← hgood.length_contents, h.contents, List.length_append, hgood'.length_contents]

/-- R192: an iteration does to the receiver what the byte at `start` does. -/
theorem receiveByte_receiver {s t : State} {b : Bool} (h : s.receiveByte = .ok (b, t)) :
    s.inb.start < s.cfg.n ∧ ∃ x, memGet s.inb.mem s.inb.start = some x ∧ s.receiver.slide x = (b, t.receiver) := by
  obtain ⟨hstart, x, hx, hslide⟩ := receiveByte_ok.1 h
  have hrec := slide_receiver { s with inb := s.inb.afterGet s.cfg.n } x
  rw [hslide] at hrec
  exact ⟨hstart, x, hx, hrec⟩

/-- R192: in a good state with a byte at the head of `in`, an iteration takes that byte. -/
theorem receiveByte_takes {s : State} {x : Byte} {rest : List Byte} (hs : MachineInv s)
    (hheld : s.inb.contents s.cfg.n = x :: rest) :
    0 < s.inb.used ∧ ∃ b t, s.receiveByte = .ok (b, t) ∧ s.receiver.slide x = (b, t.receiver) ∧ Takes s t [x] := by
  have hgood : s.inb.good s.cfg.n := hs.chan_good .inb
  have ⟨_, hstart, _⟩ := hgood
  have hdata : 0 < s.inb.used := by
    rw [← hgood.length_contents, hheld]
    exact Nat.succ_pos _
  obtain ⟨v, hv⟩ := hgood.exists_memGet_start hdata
  have hcons := hgood.contents_eq_cons hdata hv
  obtain ⟨rfl, -⟩ := List.cons.inj (hheld.symm.trans hcons)
  obtain ⟨b, t, hslide⟩ : ∃ b t, State.slide { s with inb := s.inb.afterGet s.cfg.n } x = (b, t) := ⟨_, _, rfl⟩
  have hbyte : s.receiveByte = .ok (b, t) := receiveByte_ok.2 ⟨hstart, x, hv, hslide⟩
  have hrec : s.receiver.slide x = (b, t.receiver) := by
    obtain ⟨-, y, hy, hrec⟩ := receiveByte_receiver hbyte
    rwa [Option.some.inj (hv.symm.trans hy)]
  obtain ⟨w, k, p, ps, -, rfl⟩ := receiveByte_writes hbyte
  exact ⟨hdata, b, _, hbyte, hrec, hs.of_receiveByte hdata hbyte, hcons, (congrArg (·.2) hrec).symm, rfl⟩

/-- While the receiver answers ok = 0 to the bytes at the head of `in`, the loop takes them and goes on. -/
theorem receive_of_misses {s : State} {bs rest : List Byte} (hs : MachineInv s) (hheld : s.inb.contents s.cfg.n = bs ++ rest)
    (hmiss : (s.receiver.run bs).1 = List.replicate bs.length false) : ∃ t, s.receive = t.receive ∧ Takes s t bs := by
  induction bs generalizing s with
  | nil => exact ⟨s, rfl, .refl hs⟩
  | cons x bs ih =>
    obtain ⟨hdata, b, u, hbyte, hrec, hu⟩ := receiveByte_takes hs hheld
    simp only [Receiver.run, hrec, List.length_cons, List.replicate_succ, List.cons.injEq] at hmiss
    obtain ⟨rfl, hothers⟩ := hmiss
    have hheldu : u.inb.contents u.cfg.n = bs ++ rest := (List.cons.inj (hu.contents.symm.trans hheld)).2
    obtain ⟨t, hloop, ht⟩ := ih hu.inv hheldu hothers
    exact ⟨t, (receive_of_miss hdata hbyte).trans hloop, hu.trans ht⟩

/-- R199, R200: from an empty window, with bytes without a valid frame in them that end in the payload of a valid packet, and the
checksum, at the head of `in`, a request delivers the packet and takes no byte more. -/
theorem exec_get_of_frame {s : State} {p : Packet} {noise rest : List Byte} (hs : MachineInv s) (hfp : s.fpInited = true)
    (hempty : s.wcount = 0) (hvalid : p.valid = true) (hno : NoFrameIn (noise ++ payload p))
    (hheld : s.inb.contents s.cfg.n = noise ++ p.bytes ++ rest) :
    ∃ t : State, exec .fpGet s = .next { t with result := .packet p.command p.param1 p.param2 p.param3 } ∧
      exec .fpTryget s = .next { t with result := .okPacket p.command p.param1 p.param2 p.param3 } ∧
      Takes s t (noise ++ p.bytes) ∧ t.inb.contents t.cfg.n = rest ∧ t.receiver = s.receiver.deliver p := by
  have hrun := Receiver.run_of_noFrameIn (r := s.receiver) hempty hno
  rw [append_bytes, List.append_assoc] at hheld
  obtain ⟨u, hloop, hu⟩ := receive_of_misses hs hheld (congrArg (·.1) hrun)
  have hheldu : u.inb.contents u.cfg.n = p.checksum :: rest := List.append_cancel_left (hu.contents.symm.trans hheld)
  obtain ⟨hdata, b, t, hbyte, hrec, ht⟩ := receiveByte_takes hu.inv hheldu
  rw [hu.receiver, hrun, s.receiver.slide_checksum hvalid noise, Prod.mk.injEq] at hrec
  obtain ⟨rfl, hdeliver⟩ := hrec
  have hpkt : t.pkt = p := congrArg (·.pkt) hdeliver.symm
  have hreceive : s.receive = .ok (true, t) := hloop.trans (receive_of_hit hdata hbyte)
  have hrest : t.inb.contents t.cfg.n = rest := (List.cons.inj (ht.contents.symm.trans hheldu)).2
  refine ⟨t, ?_, ?_, append_bytes noise p ▸ hu.trans ht, hrest, hdeliver.symm⟩
  · rw [exec_fpGet_of_hit hfp hreceive, hpkt]
  · rw [exec_fpTryget_of_hit hfp hreceive, hpkt]

/-! ### `FP_STEP`s with steps of other agents between them -/

/-- Only `FP_INIT` and the receive operations write to the receiver. -/
theorem exec_receiver {i : Instr} {s t : State} (h : exec i s = .next t) (hinit : i ≠ .fpInit) (hstep : i ≠ .fpStep)
    (hget : i ≠ .fpGet) (htryget : i ≠ .fpTryget) : t.receiver = s.receiver := by
  have hchan (c : Chan) (d : Channel) (r : Result) : State.receiver { s.setChan c d with result := r } = s.receiver := by
    cases c <;> rfl
  cases i with
  | fpInit => exact absurd rfl hinit
  | fpStep => exact absurd rfl hstep
  | fpGet => exact absurd rfl hget
  | fpTryget => exact absurd rfl htryget
  | stInit =>
    obtain ⟨-, rfl⟩ := stInit_next h
    rfl
  | chPut c a =>
    obtain ⟨-, ⟨-, -, rfl⟩ | ⟨-, rfl⟩⟩ := chPut_next h
    · exact hchan c _ _
    · rfl
  | chGet c =>
    obtain ⟨-, ⟨v, -, -, -, rfl⟩ | ⟨-, rfl⟩⟩ := chGet_next h
    · exact hchan c _ _
    · rfl
  | chTryput c a =>
    obtain ⟨-, -, ⟨-, -, rfl⟩ | ⟨-, rfl⟩⟩ := chTryput_next h
    · exact hchan c _ _
    · rfl
  | chTryget c =>
    obtain ⟨-, -, ⟨v, -, -, -, rfl⟩ | ⟨-, rfl⟩⟩ := chTryget_next h
    · exact hchan c _ _
    · rfl
  | stIn => obtain ⟨-, ⟨v, -, -, -, rfl⟩ | ⟨-, rfl⟩⟩ := stIn_next h <;> rfl
  | stOut a => obtain ⟨-, ⟨-, -, rfl⟩ | ⟨-, rfl⟩⟩ := stOut_next h <;> rfl
  | rxIsr => obtain ⟨-, ⟨-, rfl⟩ | ⟨-, rfl⟩⟩ := rxIsr_next h <;> rfl
  | rxWorker => obtain ⟨-, ⟨-, -, -, rfl⟩ | ⟨-, rfl⟩⟩ := rxWorker_next h <;> rfl
  | txIsr => obtain ⟨-, ⟨-, rfl⟩ | ⟨-, rfl⟩⟩ := txIsr_next h <;> rfl
  | txWorker => obtain ⟨-, ⟨v, -, -, -, -, rfl⟩ | ⟨-, -, rfl⟩ | ⟨-, rfl⟩⟩ := txWorker_next h <;> rfl
  | lineRx a =>
    obtain ⟨-, -, rfl⟩ := lineRx_next h
    rfl
  | lineTx => obtain ⟨-, ⟨-, rfl⟩ | ⟨-, rfl⟩⟩ := lineTx_next h <;> rfl
  | fpPut a b c e => obtain ⟨-, ⟨-, rfl⟩ | ⟨-, rfl⟩⟩ := fpPut_next h <;> rfl
  | fpPutStep => obtain ⟨-, ⟨-, -, -, rfl⟩ | ⟨-, rfl⟩⟩ := fpPutStep_next h <;> rfl
  | frame p => exact absurd h frame_next

/-- The first byte held is the one at `start`, also in a channel that is not good. -/
theorem take_one_contents {n : Nat} {c : Channel} {v : Byte} (hdata : 0 < c.used) (hstart : c.start < n)
    (hv : memGet c.mem c.start = some v) : (c.contents n).take 1 = [v] := by
  have hrange : List.range c.used = 0 :: (List.range (c.used - 1)).map Nat.succ := by
    rw [← List.range_succ_eq_map, Nat.sub_add_cancel hdata]
  have hfirst : memGet c.mem ((c.start + 0) % n) = some v := by rwa [Nat.add_zero, Nat.mod_eq_of_lt hstart]
  rw [Channel.contents, hrange, List.filterMap_cons]
  simp only [hfirst]
  rfl

theorem contents_of_empty {n : Nat} {c : Channel} (hempty : c.used = 0) : c.contents n = [] := by
  rw [Channel.contents, hempty]
  rfl

/-- What the `FP_STEP`s of a run take, and the ok bits they return, are what the receiver takes and answers, whatever other agents do
between them. -/
theorem run_stepTrace {ops : List Instr} {s t : State} (hfp : s.fpInited = true) (hops : stepsOnly ops)
    (hrun : runOps ops s = .next t) :
    s.receiver.run ((stepTrace ops s).map (·.1)) = ((stepTrace ops s).map (·.2), t.receiver) := by
  induction ops generalizing s with
  | nil =>
    cases hrun
    rfl
  | cons i is ih =>
    obtain ⟨u, hexec, hrest⟩ := runOps_cons.1 hrun
    obtain ⟨⟨hget, htryget⟩, hops'⟩ := List.forall_mem_cons.1 hops
    have hinit : i ≠ .fpInit := by
      rintro rfl
      obtain ⟨-, hfp0, -⟩ := fpInit_next hexec
      exact absurd hfp (Bool.eq_false_iff.1 hfp0)
    obtain ⟨-, -, hfpkept, -⟩ := exec_lifecycleKept hexec
    have hih := ih (hfpkept hfp) hops' hrest
    rw [stepTrace_cons hexec]
    by_cases hstep : i = .fpStep
    · subst hstep
      obtain ⟨-, ⟨b, v, hdata, hbyte, rfl⟩ | ⟨hempty, rfl⟩⟩ := fpStep_next.1 hexec
      · obtain ⟨hstart, x, hx, hrec⟩ := receiveByte_receiver hbyte
        have hok : decide (Result.ok b = .ok true) = b := by simp
        simp only [if_true, take_one_contents hdata hstart hx, List.map_cons, List.map_nil, List.singleton_append, Receiver.run,
          hrec, hok]
        exact congrArg (fun q : List Bool × Receiver => (b :: q.1, q.2)) hih
      · rw [contents_of_empty hempty, if_pos rfl]
        exact hih
    · rw [if_neg hstep, List.nil_append, ← exec_receiver hexec hinit hstep hget htryget]
      exact hih

/-- R200: what a run of `FP_STEP`s that takes clean noise and a valid frame from an empty window returns and leaves. -/
theorem stepTrace_of_frame {ops : List Instr} {s t : State} {p : Packet} {noise : List Byte} (hfp : s.fpInited = true)
    (hempty : s.wcount = 0) (hvalid : p.valid = true) (hno : NoFrameIn (noise ++ payload p)) (hops : stepsOnly ops)
    (hrun : runOps ops s = .next t) (htaken : (stepTrace ops s).map (·.1) = noise ++ p.bytes) :
    (stepTrace ops s).map (·.2) = List.replicate (noise.length + 4) false ++ [true] ∧ t.receiver = s.receiver.deliver p := by
  have htrace := run_stepTrace hfp hops hrun
  rw [htaken, Receiver.run_of_frame (r := s.receiver) hempty hvalid hno, Prod.mk.injEq] at htrace
  obtain ⟨hbits, hrec⟩ := htrace
  exact ⟨hbits.symm, hrec.symm⟩

/-! ### The obligations on streams -/

/-- Settles O38: fewer than five bytes make no test, and the window shifts by each. -/
theorem fpTrygetKeepsAPartialFrame : Obligations.FpTrygetKeepsAPartialFrame := by
  intro s hs hfp hfew
  have hgood : s.inb.good s.cfg.n := hs.chan_good .inb
  rw [← hgood.length_contents] at hfew ⊢
  have hrun := Receiver.run_of_few (r := s.receiver) hfew
  obtain ⟨t, hloop, ht⟩ := receive_of_misses hs (List.append_nil _).symm (congrArg (·.1) hrun)
  have hused : t.inb.used = 0 := by
    have htotal := ht.used hs
    rw [hgood.length_contents] at htotal
    omega
  obtain ⟨hw, hcount, hpkt, hout⟩ := receiver_eq_iff.1 (ht.receiver.trans (congrArg (·.2) hrun))
  replace hcount := hcount.trans (Nat.min_eq_left hfew.le)
  refine ⟨_, exec_fpTryget_of_miss hfp (hloop.trans (receive_of_empty hused)), rfl, hused, hcount, ?_, hpkt, hout⟩
  show t.w.bytes.drop (5 - t.wcount) = _
  rw [hw, hcount]
  exact drop_bytes_foldl_shiftIn s.w hfew.le

/-- Settles O39: a frame is a stream with no noise before it, and what `FP_SEND` submits is the frame. -/
theorem putThenGetReturnsThePayload : Obligations.PutThenGetReturnsThePayload := by
  refine ⟨fun ops s t a b c e hfp hempty hops hrun htaken => ?_, fun s a b c e rest hs hfp hempty hheld => ?_,
    fun s a b c e hs hfp hidle hroom => ?_⟩
  · obtain ⟨hbits, hrec⟩ := stepTrace_of_frame (noise := []) hfp hempty (Packet.valid_ofPayload a b c e) (noFrameIn_payload _)
      hops hrun htaken
    obtain ⟨-, hcount, hpkt, hout⟩ := receiver_eq_iff.1 hrec
    exact ⟨hbits, hcount, hpkt, hout⟩
  · obtain ⟨t, hg, htg, -, hrest, hrec⟩ :=
      exec_get_of_frame (noise := []) hs hfp hempty (Packet.valid_ofPayload a b c e) (noFrameIn_payload _) hheld
    obtain ⟨-, hcount, hpkt, hout⟩ := receiver_eq_iff.1 hrec
    exact ⟨t, hg, htg, hrest, hcount, hpkt, hout⟩
  · obtain ⟨t, hrun, hsent, -⟩ := fpSendSubmitsTheFrame s a b c e hs hfp hidle hroom
    refine ⟨t, _, hrun, hsent, fun r rest hr hfpr hemptyr hheld => ?_⟩
    obtain ⟨u, hg, -⟩ :=
      exec_get_of_frame (noise := []) hr hfpr hemptyr (Packet.valid_ofPayload a b c e) (noFrameIn_payload _) hheld
    exact ⟨_, hg, rfl⟩

/-- Settles O40: a window that ends before the frame's last byte begins inside the noise, and so fails its test. -/
theorem resynchronisesAfterCleanNoise : Obligations.ResynchronisesAfterCleanNoise := by
  intro s noise p hfp hempty hvalid hclean
  have hno := noFrameIn_of_windows hclean
  refine ⟨fun ops t hops hrun htaken => ?_, fun rest hs hheld => ?_⟩
  · obtain ⟨hbits, hrec⟩ := stepTrace_of_frame hfp hempty hvalid hno hops hrun htaken
    obtain ⟨-, hcount, hpkt, hout⟩ := receiver_eq_iff.1 hrec
    exact ⟨hbits, hpkt, hcount, hout⟩
  · obtain ⟨t, hg, -, htakes, hrest, hrec⟩ := exec_get_of_frame hs hfp hempty hvalid hno hheld
    obtain ⟨-, hcount, hpkt, hout⟩ := receiver_eq_iff.1 hrec
    have hused := htakes.used hs
    rw [List.length_append, Nat.add_comm] at hused
    exact ⟨_, hg, rfl, hpkt, hcount, hout, hrest, hused.symm⟩

/-- Settles O41: after the success the count starts again at 0, and up to four bytes make no test. -/
theorem overlappingFrameIsLost : Obligations.OverlappingFrameIsLost := by
  intro s p hfp hempty hvalid
  refine ⟨fun ops t xs hops hrun hxs htaken => ?_, fun x rest hs hheld => ?_⟩
  · have hfew : (s.receiver.deliver p).wcount + xs.length < 5 := by
      show 0 + xs.length < 5
      omega
    have htrace := run_stepTrace hfp hops hrun
    have hframe := Receiver.run_of_frame (r := s.receiver) (noise := []) hempty hvalid (noFrameIn_payload p)
    rw [List.nil_append] at hframe
    rw [htaken, Receiver.run_append, hframe, Receiver.run_of_few hfew, Prod.mk.injEq] at htrace
    obtain ⟨hbits, hrec⟩ := htrace
    obtain ⟨hw, hcount, hpkt, hout⟩ := receiver_eq_iff.1 hrec.symm
    refine ⟨hbits.symm, ?_, ?_, hpkt, hout⟩
    · rw [hw]
      exact bytes_foldl_shiftIn p xs
    · rw [hcount]
      show min (0 + xs.length) 5 = xs.length
      omega
  · rw [List.append_assoc] at hheld
    obtain ⟨t, hg, -, htakes, hrest, hrec⟩ := exec_get_of_frame (noise := []) hs hfp hempty hvalid (noFrameIn_payload p) hheld
    obtain ⟨hdata, b, u, hbyte, hslide, -⟩ :=
      receiveByte_takes (s := { t with result := .packet p.command p.param1 p.param2 p.param3 }) htakes.inv hrest
    have hmiss : Receiver.slide t.receiver x = (false, (s.receiver.deliver p).collect [x]) := by
      rw [hrec]
      rfl
    obtain ⟨rfl, hrecu⟩ := Prod.mk.inj (hslide.symm.trans hmiss)
    obtain ⟨hw, hcount, -, hout⟩ := receiver_eq_iff.1 hrecu
    exact ⟨_, _, hg, rfl, exec_fpStep_of_data (htakes.fpInited hfp) hdata hbyte, rfl, hcount, hw, hout⟩

end Machine
end Sys2Proof
end

section
/-!
The delivered packets (42_framing.md R203, R41): each is valid, and the current packet is the last of them.
-/
namespace Sys2Proof
namespace Machine

theorem PacketInv.of_receiver_eq {s t : State} (h : t.receiver = s.receiver) (hinv : PacketInv s) : PacketInv t := by
  obtain ⟨-, -, hpkt, hout⟩ := receiver_eq_iff.1 h
  rw [PacketInv, hpkt, hout]
  exact hinv

/-- R192: a packet is delivered after its test, and becomes the current one. -/
theorem PacketInv.of_receiveByte {s t : State} {b : Bool} (hinv : PacketInv s) (h : s.receiveByte = .ok (b, t)) : PacketInv t := by
  obtain ⟨hall, hlast⟩ := hinv
  obtain ⟨-, x, -, hslide⟩ := receiveByte_ok.1 h
  obtain ⟨-, hvalid, hok⟩ | ⟨-, hno⟩ := slide_cases { s with inb := s.inb.afterGet s.cfg.n } x
  · rw [hok, Prod.mk.injEq] at hslide
    obtain ⟨-, rfl⟩ := hslide
    refine ⟨fun p hp => ?_, fun p hp => ?_⟩
    · obtain hold | hnew := List.mem_append.1 hp
      · exact hall p hold
      · rwa [List.mem_singleton.1 hnew]
    · exact Option.some.inj (List.getLast?_concat.symm.trans hp)
  · rw [hno, Prod.mk.injEq] at hslide
    obtain ⟨-, rfl⟩ := hslide
    exact ⟨hall, hlast⟩

theorem PacketInv.of_receive {s t : State} {b : Bool} (hinv : PacketInv s) (h : s.receive = .ok (b, t)) : PacketInv t :=
  receive_induct (fun _ _ _ hu _ hb => hu.of_receiveByte hb) hinv h

/-- Every operation keeps the packet invariant; `FP_INIT` empties the history. -/
theorem PacketInv.of_exec {i : Instr} {s t : State} (hinv : PacketInv s) (h : exec i s = .next t) : PacketInv t := by
  cases i with
  | fpInit =>
    obtain ⟨-, -, rfl⟩ := fpInit_next h
    exact ⟨nofun, nofun⟩
  | fpStep =>
    obtain ⟨-, ⟨b, u, -, hu, rfl⟩ | ⟨-, rfl⟩⟩ := fpStep_next.1 h
    · exact hinv.of_receiveByte (t := u) hu
    · exact hinv
  | fpGet =>
    obtain ⟨-, b, u, hu, rfl⟩ := fpGet_next.1 h
    exact hinv.of_receive (t := u) hu
  | fpTryget =>
    obtain ⟨-, b, u, hu, rfl⟩ := fpTryget_next.1 h
    exact hinv.of_receive (t := u) hu
  | _ => exact hinv.of_receiver_eq (exec_receiver h nofun nofun nofun nofun)

/-- Settles O53: `PacketInv.of_exec` at the operation the step runs; `schedule` enters no clause. -/
theorem stepKeepsPacketInv : Obligations.StepKeepsPacketInv := by
  intro s t hinv h
  obtain ⟨-, rfl⟩ | ⟨d, rest, i, -, -, hexec⟩ := step_next h
  · exact hinv
  · exact PacketInv.of_exec (s := { s with schedule := rest }) hinv hexec

end Machine
end Sys2Proof
end

section
/-!
The two handlers and the two line steps (60_exceptions.md R234, R236, R240, 70_reset_and_hazards.md R287): what they leave unchanged,
and that the handlers commute.
-/
namespace Sys2Proof
namespace Machine

/-- Settles O47: each arm of `RX_ISR`, `TX_ISR`, `LINE_RX` and `LINE_TX` writes its own elements by name. -/
theorem frameOfHandlersAndLine : Obligations.FrameOfHandlersAndLine := by
  refine fun s t a => ⟨fun h => ?_, fun h => ?_, fun h => ?_, fun h => ?_⟩
  · obtain ⟨-, ⟨-, rfl⟩ | ⟨-, rfl⟩⟩ := rxIsr_next h <;> rfl
  · obtain ⟨-, ⟨-, rfl⟩ | ⟨-, rfl⟩⟩ := txIsr_next h <;> rfl
  · obtain ⟨-, -, rfl⟩ := lineRx_next h
    rfl
  · obtain ⟨-, ⟨-, rfl⟩ | ⟨-, rfl⟩⟩ := lineTx_next h <;> rfl

/-- `RX_ISR` writes nothing that enables `TX_ISR`. -/
theorem rxIsr_keeps_irqTx {s t : State} (h : exec .rxIsr s = .next t) : t.stInited = s.stInited ∧ t.irqTx = s.irqTx := by
  obtain ⟨-, ⟨-, rfl⟩ | ⟨-, rfl⟩⟩ := rxIsr_next h <;> exact ⟨rfl, rfl⟩

/-- `TX_ISR` writes nothing that enables `RX_ISR`. -/
theorem txIsr_keeps_irqRx {s t : State} (h : exec .txIsr s = .next t) : t.stInited = s.stInited ∧ t.irqRx = s.irqRx := by
  obtain ⟨-, ⟨-, rfl⟩ | ⟨-, rfl⟩⟩ := txIsr_next h <;> exact ⟨rfl, rfl⟩

/-- Settles O30: the handler that runs second still finds its request 1, and the two write different elements. -/
theorem handlersCommute : Obligations.HandlersCommute := by
  intro s hst hrx htx
  have ⟨_, _, hrxSig⟩ := irqRx_iff.1 hrx
  have ⟨_, _, htxSig⟩ := irqTx_iff.1 htx
  have hrxFirst := exec_rxIsr hst hrx
  have htxFirst := exec_txIsr hst htx
  have ⟨hstRx, htxKept⟩ := rxIsr_keeps_irqTx hrxFirst
  have ⟨hstTx, hrxKept⟩ := txIsr_keeps_irqRx htxFirst
  have htxSecond := exec_txIsr (hstRx.trans hst) (htxKept.trans htx)
  have hrxSecond := exec_rxIsr (hstTx.trans hst) (hrxKept.trans hrx)
  exact ⟨_, runOps_cons.2 ⟨_, hrxFirst, runOps_cons.2 ⟨_, htxSecond, rfl⟩⟩,
    runOps_cons.2 ⟨_, htxFirst, runOps_cons.2 ⟨_, hrxSecond, rfl⟩⟩,
    congrArg (· + 1) hrxSig, congrArg (· + 1) htxSig, rfl⟩

end Machine
end Sys2Proof
end

section
/-!
Faults in good states (60_exceptions.md R230 to R232, 20_memory.md R62): a put with room and a get with data always have a next state,
so the line overrun is the one fault left.
-/
namespace Sys2Proof
namespace Machine

theorem ne_fault_of_next {x : Out} {t : State} (h : x = .next t) (f : Fault) : x ≠ .fault f := by
  rw [h]
  exact nofun

/-! ### The bodies that read or write a slot -/

section
variable {s : State}

/-- R120, R122: an index inside the channel is no fault, and neither is a full channel. -/
theorem guardedPut_ne_fault {h : Chan} (hgood : (s.chan h).good s.cfg.n) (a : Byte) (r q : Result) (f : Fault) :
    (if s.hasRoom h then finish (s.putOn h a) r else s.done q) ≠ .fault f := by
  have ⟨_, _, hend, _⟩ := hgood
  obtain hroom | hfull := Nat.lt_or_ge (s.chan h).used s.cfg.n
  · exact ne_fault_of_next (guardedPut_of_room hroom hend r q) f
  · exact ne_fault_of_next (guardedPut_of_full hfull r q) f

/-- R121, R123: the slot a get reads holds a byte, and an empty channel is no fault. -/
theorem guardedGet_ne_fault {h : Chan} (hgood : (s.chan h).good s.cfg.n) (r : Byte → Result) (q : Result) (f : Fault) :
    (if s.hasData h then finishByte (s.getFrom h) r else s.done q) ≠ .fault f := by
  have ⟨_, hstart, _⟩ := hgood
  obtain hempty | hdata := Nat.eq_zero_or_pos (s.chan h).used
  · exact ne_fault_of_next (guardedGet_of_empty hempty r q) f
  · obtain ⟨v, hv⟩ := hgood.exists_memGet_start hdata
    exact ne_fault_of_next (guardedGet_of_data hdata hstart hv r q) f

theorem takeInterrupt_ne_fault (request : Bool) (handler : State → State) (f : Fault) :
    s.takeInterrupt request handler ≠ .fault f := by
  cases request with
  | true => exact ne_fault_of_next (takeInterrupt_next.2 (.inl ⟨rfl, rfl⟩)) f
  | false => exact ne_fault_of_next (takeInterrupt_next.2 (.inr ⟨rfl, rfl⟩)) f

/-- R192: an iteration on a byte held completes; a checksum mismatch is the answer `false`. -/
theorem exists_receiveByte (hs : MachineInv s) (hdata : 0 < s.inb.used) : ∃ b t, s.receiveByte = .ok (b, t) := by
  have hgood : s.inb.good s.cfg.n := hs.chan_good .inb
  have ⟨_, hstart, _⟩ := hgood
  obtain ⟨x, hx⟩ := hgood.exists_memGet_start hdata
  exact ⟨_, _, receiveByte_ok.2 ⟨hstart, x, hx, rfl⟩⟩

/-- R193, R194: so a whole receive completes, by induction on the bytes held. -/
theorem exists_receive (hs : MachineInv s) : ∃ b t, s.receive = .ok (b, t) := by
  induction hused : s.inb.used generalizing s with
  | zero => exact ⟨false, s, receive_of_empty hused⟩
  | succ k ih =>
    have hdata : 0 < s.inb.used := by omega
    obtain ⟨b, t, hb⟩ := exists_receiveByte hs hdata
    cases b with
    | true => exact ⟨true, t, receive_of_hit hdata hb⟩
    | false =>
      have hleft : t.inb.used = k := by
        obtain ⟨w, n, p, ps, -, rfl⟩ := receiveByte_writes hb
        exact Nat.sub_eq_of_eq_add hused
      rw [receive_of_miss hdata hb]
      exact ih (hs.of_receiveByte hdata hb) hleft

end

/-! ### The operations -/

/-- In a good state every operation but `LINE_RX` answers a next state or a refusal. -/
theorem exec_ne_fault {i : Instr} {s : State} (hs : MachineInv s) (hline : ∀ a, i ≠ .lineRx a) (f : Fault) :
    exec i s ≠ .fault f := by
  intro h
  have hgood := hs.chan_good
  have ⟨_, _, hinEnd, _⟩ := hgood .inb
  have ⟨_, houtStart, houtEnd, _⟩ := hgood .out
  cases i with
  | stInit =>
    simp only [exec, execStInit] at h
    split at h <;> cases h
  | fpInit =>
    obtain ⟨-, hbody⟩ := needSt_fault.1 h
    split at hbody <;> cases hbody
  | chPut c a => exact guardedPut_ne_fault (hgood c) a _ _ f (needSt_fault.1 h).2
  | chGet c => exact guardedGet_ne_fault (hgood c) _ _ f (needSt_fault.1 h).2
  | chTryput c a =>
    obtain ⟨-, hbody⟩ := needTry_fault.1 h
    exact guardedPut_ne_fault (hgood c) a _ _ f (needSt_fault.1 hbody).2
  | chTryget c =>
    obtain ⟨-, hbody⟩ := needTry_fault.1 h
    exact guardedGet_ne_fault (hgood c) _ _ f (needSt_fault.1 hbody).2
  | stIn => exact guardedGet_ne_fault (hgood .inb) _ _ f (needSt_fault.1 h).2
  | stOut a =>
    obtain ⟨hst, -⟩ := needSt_fault.1 h
    obtain hroom | hfull := Nat.lt_or_ge s.out.used s.cfg.n
    · exact ne_fault_of_next (exec_stOut_of_room a hst hroom houtEnd) f h
    · exact ne_fault_of_next (exec_stOut_of_full a hst hfull) f h
  | rxIsr => exact takeInterrupt_ne_fault _ _ f (needSt_fault.1 h).2
  | rxWorker =>
    obtain ⟨hst, -⟩ := needSt_fault.1 h
    by_cases hguard : s.rxSig = 1 ∧ s.inb.used < s.cfg.n
    · exact ne_fault_of_next (exec_rxWorker hst hguard.1 hguard.2 hinEnd) f h
    · exact ne_fault_of_next (exec_rxWorker_of_cannot_deliver hst hguard) f h
  | txIsr => exact takeInterrupt_ne_fault _ _ f (needSt_fault.1 h).2
  | txWorker =>
    obtain ⟨hst, -⟩ := needSt_fault.1 h
    by_cases hsig : s.txSig = 1
    · obtain hempty | hdata := Nat.eq_zero_or_pos s.out.used
      · exact ne_fault_of_next (exec_txWorker_of_empty hst hsig hempty) f h
      · obtain ⟨v, hv⟩ := (hgood .out).exists_memGet_start hdata
        exact ne_fault_of_next (exec_txWorker hst hsig hdata houtStart hv) f h
    · exact ne_fault_of_next (exec_txWorker_of_no_signal hst hsig) f h
  | lineRx a => exact hline a rfl
  | lineTx =>
    obtain ⟨hst, -⟩ := needSt_fault.1 h
    cases hready : s.txReady with
    | true => exact ne_fault_of_next (exec_lineTx_of_ready hst hready) f h
    | false => exact ne_fault_of_next (exec_lineTx hst hready) f h
  | fpStep =>
    obtain ⟨hfp, -⟩ := needFp_fault.1 h
    obtain hempty | hdata := Nat.eq_zero_or_pos s.inb.used
    · exact ne_fault_of_next (exec_fpStep_of_empty hfp hempty) f h
    · obtain ⟨b, u, hu⟩ := exists_receiveByte hs hdata
      exact ne_fault_of_next (exec_fpStep_of_data hfp hdata hu) f h
  | fpGet =>
    obtain ⟨hfp, -⟩ := needFp_fault.1 h
    obtain ⟨b, u, hu⟩ := exists_receive hs
    exact ne_fault_of_next (fpGet_next.2 ⟨hfp, b, u, hu, rfl⟩) f h
  | fpTryget =>
    obtain ⟨hfp, -⟩ := needFp_fault.1 h
    obtain ⟨b, u, hu⟩ := exists_receive hs
    exact ne_fault_of_next (fpTryget_next.2 ⟨hfp, b, u, hu, rfl⟩) f h
  | fpPut a b c e =>
    obtain ⟨hfp, -⟩ := needFp_fault.1 h
    by_cases hidle : s.putIdx = 5
    · exact ne_fault_of_next (exec_fpPut a b c e hfp hidle) f h
    · exact ne_fault_of_next (exec_fpPut_of_busy a b c e hfp hidle) f h
  | fpPutStep =>
    obtain ⟨hfp, -⟩ := needFp_fault.1 h
    by_cases hguard : s.putIdx < 5 ∧ s.out.used < s.cfg.n
    · exact ne_fault_of_next (exec_fpPutStep hfp hguard.1 hguard.2 houtEnd) f h
    · exact ne_fault_of_next (exec_fpPutStep_of_cannot_push hfp hguard) f h
  | frame p => cases h

/-- R151: what `LINE_RX` answers as a fault is the overrun of its own byte. -/
theorem lineRx_fault {s : State} {a : Byte} {f : Fault} (h : exec (.lineRx a) s = .fault f) :
    f = .lineOverrun a ∧ s.rxReady = true := by
  obtain ⟨hst, -⟩ := needSt_fault.1 h
  cases hready : s.rxReady with
  | true => exact ⟨(Host.Outcome.fault.inj ((exec_lineRx_of_ready a hst hready).symm.trans h)).symm, rfl⟩
  | false => exact absurd h (ne_fault_of_next (exec_lineRx a hst hready) f)

/-- Settles O58: no other operation faults (`exec_ne_fault`), and `LINE_RX` only on a byte not read (`lineRx_fault`). -/
theorem goodStatesFaultOnlyByLineOverrun : Obligations.GoodStatesFaultOnlyByLineOverrun := by
  intro i s f hs h
  by_cases hline : ∃ a, i = .lineRx a
  · obtain ⟨a, rfl⟩ := hline
    exact ⟨a, rfl, lineRx_fault h⟩
  · exact absurd h (exec_ne_fault hs (not_exists.1 hline) f)

end Machine
end Sys2Proof
end

section
/-!
What is refused (70_reset_and_hazards.md R273), and the state at power-on (R270): before an initialisation the requests that need it
stop at their first test, and an empty channel meets every clause of the channel invariant.
-/
namespace Sys2Proof
namespace Machine

/-! ### The tests a request starts with -/

section
variable {s : State} {k : Out}

theorem needSt_of_not_inited (hst : s.stInited = false) : s.needSt k = .refused .beforeStInit := by
  simp [State.needSt, hst]

theorem needFp_of_not_inited (hfp : s.fpInited = false) : s.needFp k = .refused .beforeFpInit := by
  simp [State.needFp, hfp]

theorem needTry_of_not_offered (htry : s.cfg.hasTry = false) : s.needTry k = .refused .tryNotOffered := by
  simp [State.needTry, htry]

theorem needTry_of_offered (htry : s.cfg.hasTry = true) : s.needTry k = k := by
  simp [State.needTry, htry]

theorem needSt_of_inited (hst : s.stInited = true) : s.needSt k = k := by
  simp [State.needSt, hst]

theorem needFp_of_inited (hfp : s.fpInited = true) : s.needFp k = k := by
  simp [State.needFp, hfp]

end

/-- Settles O14: each request begins with the test that fails; the second initialisations are those of O12 and O13. -/
theorem requestsOutOfOrderAreRefused : Obligations.RequestsOutOfOrderAreRefused := by
  intro s h a b c e
  obtain ⟨-, hstInit⟩ := stInitCreatesTheTransport
  obtain ⟨-, hfpInit⟩ := fpInitEmptiesWindowAndSequencer
  obtain ⟨-, hstAgain⟩ := hstInit s
  obtain ⟨-, hfpEarly, hfpAgain⟩ := hfpInit s
  refine ⟨fun hst => ?_, fun hst htry => ?_, fun _ htry => ?_, fun hfp => ?_, hstAgain, hfpAgain⟩
  · simp only [List.forall_mem_cons]
    refine ⟨?_, ?_, ?_, ?_, ?_, ?_, ?_, ?_, ?_, ?_, hfpEarly hst, nofun⟩ <;> exact needSt_of_not_inited hst
  · simp only [List.forall_mem_cons]
    refine ⟨?_, ?_, nofun⟩ <;> exact (needTry_of_offered htry).trans (needSt_of_not_inited hst)
  · simp only [List.forall_mem_cons]
    refine ⟨?_, ?_, nofun⟩ <;> exact needTry_of_not_offered htry
  · simp only [List.forall_mem_cons]
    refine ⟨?_, ?_, ?_, ?_, ?_, nofun⟩ <;> exact needFp_of_not_inited hfp

/-! ### Power-on -/

/-- Settles O11: the default parameters have `K = 8`. -/
theorem powerOnState : Obligations.PowerOnState := ⟨rfl, rfl, rfl, rfl⟩

theorem Channel.good_initial {n : Nat} (hn : 0 < n) : Channel.initial.good n :=
  ⟨Nat.zero_le n, hn, hn, Nat.zero_mod n, .nil, nofun, fun j hj => absurd hj (Nat.not_lt_zero j)⟩

/-- Settles O51: both channels are empty, every count is 0 and every history is the empty list (log 3). -/
theorem invariantsHoldAtPowerOn : Obligations.InvariantsHoldAtPowerOn := by
  have hgood : Channel.initial.good Config.default.n := Channel.good_initial (Nat.two_pow_pos _)
  refine ⟨⟨?_, hgood, hgood, ?_, ?_, ?_, ?_, nofun, nofun⟩, ⟨nofun, nofun⟩, ⟨nofun, nofun⟩, nofun, List.suffix_rfl⟩ <;> decide

end Machine
end Sys2Proof
end

section
/-!
The quiescent state (70_reset_and_hazards.md R286): for each of the block's own agents and for `LINE_TX`, when its step changes nothing
or is refused; and what that leaves of a state of the reference design with room in `in`.
-/
namespace Sys2Proof
namespace Machine

/-! ### What is never refused -/

section
variable {s : State}

theorem finish_ne_refused (x : Except Fault State) (q : Result) (r : Refusal) : finish x q ≠ .refused r := by
  cases x <;> exact nofun

theorem takeInterrupt_ne_refused (request : Bool) (handler : State → State) (r : Refusal) :
    s.takeInterrupt request handler ≠ .refused r := by
  cases request <;> exact nofun

/-- A guarded body that is not refused while its guard is true is not refused: otherwise it holds. -/
theorem guarded_ne_refused {c : Bool} {k : Out} (hk : ∀ r, k ≠ .refused r) (r : Refusal) :
    (if c then k else s.hold) ≠ .refused r := by
  cases c with
  | true => exact hk r
  | false => exact nofun

theorem exists_needSt_refused_iff {k : Out} (hk : ∀ r, k ≠ .refused r) : (∃ r, s.needSt k = .refused r) ↔ s.stInited = false := by
  cases hst : s.stInited with
  | true => simp [needSt_of_inited hst, hk]
  | false => simp [needSt_of_not_inited hst]

theorem exists_needFp_refused_iff {k : Out} (hk : ∀ r, k ≠ .refused r) : (∃ r, s.needFp k = .refused r) ↔ s.fpInited = false := by
  cases hfp : s.fpInited with
  | true => simp [needFp_of_inited hfp, hk]
  | false => simp [needFp_of_not_inited hfp]

/-! ### When a step is not enabled -/

/-- The step of `i` is not enabled: it holds and changes nothing but the marker (R10), or it is refused (R273; log 25). -/
def HoldsOrRefused (i : Instr) (s : State) : Prop :=
  exec i s = .next { s with result := .held } ∨ ∃ r, exec i s = .refused r

/-- An operation refused only before its initialisation is not enabled exactly when, from there on, the condition `P` of its hold is
met. A step that answers another result than the marker `held` did not hold. -/
theorem holdsOrRefused_iff {i : Instr} {inited : Bool} {P : Prop} (hrefused : (∃ r, exec i s = .refused r) ↔ inited = false)
    (hheld : inited = true → P → exec i s = .next { s with result := .held })
    (hmoves : ∀ t, exec i s = .next t → t.result = .held → P) :
    HoldsOrRefused i s ↔ (inited = true → P) := by
  rw [HoldsOrRefused, hrefused]
  cases inited with
  | true => simpa using ⟨fun h => hmoves _ h rfl, hheld rfl⟩
  | false => simp

theorem rxIsr_holdsOrRefused_iff : HoldsOrRefused .rxIsr s ↔ (s.stInited = true → s.irqRx = false) := by
  refine holdsOrRefused_iff (exists_needSt_refused_iff (takeInterrupt_ne_refused _ _)) exec_rxIsr_of_no_request fun t h hres => ?_
  obtain ⟨-, ⟨-, rfl⟩ | ⟨hirq, -⟩⟩ := rxIsr_next h
  · cases hres
  · exact hirq

theorem txIsr_holdsOrRefused_iff : HoldsOrRefused .txIsr s ↔ (s.stInited = true → s.irqTx = false) := by
  refine holdsOrRefused_iff (exists_needSt_refused_iff (takeInterrupt_ne_refused _ _)) exec_txIsr_of_no_request fun t h hres => ?_
  obtain ⟨-, ⟨-, rfl⟩ | ⟨hirq, -⟩⟩ := txIsr_next h
  · cases hres
  · exact hirq

theorem rxWorker_holdsOrRefused_iff :
    HoldsOrRefused .rxWorker s ↔ (s.stInited = true → ¬(s.rxSig = 1 ∧ s.inb.used < s.cfg.n)) := by
  refine holdsOrRefused_iff (exists_needSt_refused_iff (guarded_ne_refused (finish_ne_refused _ _)))
    exec_rxWorker_of_cannot_deliver fun t h hres => ?_
  obtain ⟨-, ⟨-, -, -, rfl⟩ | ⟨hguard, -⟩⟩ := rxWorker_next h
  · cases hres
  · exact hguard

theorem txWorker_holdsOrRefused_iff : HoldsOrRefused .txWorker s ↔ (s.stInited = true → s.txSig ≠ 1) := by
  refine holdsOrRefused_iff (exists_needSt_refused_iff (guarded_ne_refused fun r => ?_)) exec_txWorker_of_no_signal fun t h hres => ?_
  · split
    · exact finish_ne_refused _ _ _
    · exact nofun
  obtain ⟨-, ⟨v, -, -, -, -, rfl⟩ | ⟨-, -, rfl⟩ | ⟨hsig, -⟩⟩ := txWorker_next h
  · cases hres
  · cases hres
  · exact hsig

theorem lineTx_holdsOrRefused_iff : HoldsOrRefused .lineTx s ↔ (s.stInited = true → s.txReady = true) := by
  refine holdsOrRefused_iff (exists_needSt_refused_iff fun r => ?_) exec_lineTx_of_ready fun t h hres => ?_
  · split <;> exact nofun
  obtain ⟨-, ⟨-, rfl⟩ | ⟨hready, -⟩⟩ := lineTx_next h
  · cases hres
  · exact hready

theorem fpPutStep_holdsOrRefused_iff :
    HoldsOrRefused .fpPutStep s ↔ (s.fpInited = true → ¬(s.putIdx < 5 ∧ s.out.used < s.cfg.n)) := by
  refine holdsOrRefused_iff (exists_needFp_refused_iff (guarded_ne_refused (finish_ne_refused _ _)))
    exec_fpPutStep_of_cannot_push fun t h hres => ?_
  obtain ⟨-, ⟨-, -, -, rfl⟩ | ⟨hguard, -⟩⟩ := fpPutStep_next h
  · cases hres
  · exact hguard

theorem fpStep_holdsOrRefused_iff : HoldsOrRefused .fpStep s ↔ (s.fpInited = true → s.inb.used = 0) := by
  refine holdsOrRefused_iff (exists_needFp_refused_iff (guarded_ne_refused fun r => ?_)) exec_fpStep_of_empty fun t h hres => ?_
  · split <;> exact nofun
  obtain ⟨-, ⟨b, u, -, -, rfl⟩ | ⟨hempty, -⟩⟩ := fpStep_next.1 h
  · cases hres
  · exact hempty

/-- `FP_GET` has no iteration to make while `in` is empty (R193). -/
theorem fpGet_holdsOrRefused (hempty : s.fpInited = true → s.inb.used = 0) : HoldsOrRefused .fpGet s := by
  cases hfp : s.fpInited with
  | true => exact .inl (exec_fpGet_of_miss hfp (receive_of_empty (hempty hfp)))
  | false => exact .inr ⟨_, needFp_of_not_inited hfp⟩

/-! ### Quiescent states -/

/-- R286, first sentence: `quiescent_iff` lists, agent by agent, the condition under which the agent's step is not enabled. -/
theorem quiescent_iff_holdsOrRefused {g : Bool} :
    s.quiescent g = true ↔
      (∀ i ∈ [Instr.rxIsr, .rxWorker, .txIsr, .txWorker, .fpPutStep, .lineTx], HoldsOrRefused i s) ∧
        (g = true → HoldsOrRefused .fpStep s) := by
  have hget : ¬(g = true ∧ 0 < s.inb.used) ↔ (g = true → s.inb.used = 0) := by
    rw [not_and, Nat.pos_iff_ne_zero, not_not]
  simp only [quiescent_iff, hget, imp_and, List.forall_mem_cons, rxIsr_holdsOrRefused_iff, rxWorker_holdsOrRefused_iff,
    txIsr_holdsOrRefused_iff, txWorker_holdsOrRefused_iff, fpPutStep_holdsOrRefused_iff, lineTx_holdsOrRefused_iff,
    fpStep_holdsOrRefused_iff]
  constructor
  · rintro ⟨⟨hrx, htx, hdeliver, hserve, hready⟩, hpush, hget⟩
    exact ⟨⟨hrx, hdeliver, htx, hserve, hpush, hready, nofun⟩, fun hg hfp => hget hfp hg⟩
  · rintro ⟨⟨hrx, hdeliver, htx, hserve, hpush, hready, -⟩, hget⟩
    exact ⟨⟨hrx, htx, hdeliver, hserve, hready⟩, hpush, fun hfp hg => hget hg hfp⟩

/-- R163: an enabled transmitter that is ready and has no signal pending requests its interrupt, so without that request nothing waits
in `out`. -/
theorem TransmitInv.out_empty_of_no_request (hinv : TransmitInv s) (hready : s.txReady = true) (hsig : s.txSig = 0)
    (hirq : s.irqTx = false) : s.out.used = 0 := by
  obtain ⟨hwaiting, -⟩ := hinv
  by_contra hne
  have hie : s.txIe = true := hwaiting (Nat.pos_of_ne_zero hne)
  exact Bool.false_ne_true (hirq.symm.trans (irqTx_iff.2 ⟨hready, hie, hsig⟩))

/-- R286, the list: with room in `in` no signal can be pending, and with `out` empty the framing sender is enabled unless it is
idle. -/
theorem quiescent_iff_list {g : Bool} (hst : s.stInited = true) (hs : MachineInv s) (hinv : TransmitInv s)
    (hroom : s.inb.used < s.cfg.n) :
    s.quiescent g = true ↔
      s.irqRx = false ∧ s.irqTx = false ∧ s.rxSig = 0 ∧ s.txSig = 0 ∧ s.txReady = true ∧
        (s.fpInited = true → s.putIdx = 5 ∧ ¬(g = true ∧ 0 < s.inb.used)) := by
  obtain ⟨-, -, -, hrxSig, htxSig, -, hidx, -, -⟩ := hs
  have hn : 0 < s.cfg.n := Nat.two_pow_pos _
  rw [quiescent_iff]
  constructor
  · rintro ⟨htransport, hframing⟩
    obtain ⟨hrx, htx, hdeliver, hserve, hready⟩ := htransport hst
    have htx0 : s.txSig = 0 := Nat.lt_one_iff.1 (lt_of_le_of_ne htxSig hserve)
    have hrx0 : s.rxSig = 0 := Nat.lt_one_iff.1 (lt_of_le_of_ne hrxSig fun h1 => hdeliver ⟨h1, hroom⟩)
    refine ⟨hrx, htx, hrx0, htx0, hready, fun hfp => ?_⟩
    obtain ⟨hpush, hget⟩ := hframing hfp
    have hout : s.out.used < s.cfg.n := (hinv.out_empty_of_no_request hready htx0 htx).symm ▸ hn
    exact ⟨hidx.antisymm (Nat.le_of_not_lt fun hlt => hpush ⟨hlt, hout⟩), hget⟩
  · rintro ⟨hrx, htx, hrx0, htx0, hready, hframing⟩
    refine ⟨fun _ => ⟨hrx, htx, by omega, by omega, hready⟩, fun hfp => ?_⟩
    obtain ⟨hidle, hget⟩ := hframing hfp
    exact ⟨by omega, hget⟩

end

/-- Settles O59: an `FP_GET` changes nothing where its `FP_STEP` would not. -/
theorem quiescentAgentsHold : Obligations.QuiescentAgentsHold := by
  refine fun s g => ⟨quiescent_iff_holdsOrRefused, fun hq hg => ?_, quiescent_iff_list⟩
  obtain ⟨-, hstep⟩ := quiescent_iff_holdsOrRefused.1 hq
  exact fpGet_holdsOrRefused (fpStep_holdsOrRefused_iff.1 (hstep hg))

end Machine
end Sys2Proof
end
